-- ==== Sys2Proof/Word.lean ====
section
/-! DEFINITION. The byte, the structured frame and the lock request's target (spec/00_scope.md R7,
spec/30_encoding.md R61, spec/10_state.md R24). -/

namespace Sys2Proof

/-- `u8`: an unsigned integer 0 to 255, bit 0 the least significant (R7). -/
abbrev Byte := BitVec 8

/-- The structured form of a frame (R61). The length and the checksum are not stored in it because they
are functions of the rest. -/
structure Frame where
  command : Byte
  source : Byte
  sequence : Byte
  payload : List Byte
  deriving DecidableEq, Repr

/-- The operand of LOCKREQ: the lock state the host asks for (R24, R177). -/
inductive LockTarget where
  | lock
  | unlock
  deriving DecidableEq, Repr

end Sys2Proof
end

