-- ==== Sys2Proof/Config.lean ====
section
/-! DEFINITION. The named parameters of the block: the constants of spec/00_scope.md R5, the open parameters
of R6 at the values the log names, and the free values. -/

namespace Sys2Proof.Config

/-- `RX_CAP`: capacity of the assembly buffer; overflow fires when the length after the append equals it
(R5; conflict C1, entry 7). -/
abbrev rxCap : Nat := 40

/-- `T_FRAME` in milliseconds: the inter-byte silence that delimits a frame, strictly greater than (R5). -/
abbrev tFrame : Nat := 10

/-- `T_POLL` in milliseconds: the poll timer's interval, strictly greater than (R5). -/
abbrev tPoll : Nat := 1800000

/-- `PAYLOAD_MAX`: the largest payload length of the frame format (R5). -/
abbrev payloadMax : Nat := 35

/-- `HDR_LEN`: command, source, sequence, payload_length (R5). -/
abbrev hdrLen : Nat := 4

/-- `OVERHEAD`: the header and the checksum byte (R5; conflict C8). -/
abbrev overhead : Nat := 5

/-- `MIN_FRAME`: the smallest frame the dispatcher accepts (R5). -/
abbrev minFrame : Nat := 5

/-- `TX_CAP` = `PAYLOAD_MAX + OVERHEAD`: capacity of the outgoing frame register (R6).
DESIGN CHOICE of the open parameter, entry 31. -/
abbrev txCap : Nat := 40

/-- `SRC_CTRL`: controller source id, normal (R5). -/
abbrev srcCtrl : Byte := 0xA0

/-- `SRC_CTRL_REPLY`: controller source id, reply context (R5). -/
abbrev srcCtrlReply : Byte := 0xA1

/-- `SRC_PERIPH`: peripheral source id, normal (R5). -/
abbrev srcPeriph : Byte := 0xB0

/-- `SRC_PERIPH_ALT` = `SRC_PERIPH | 0x01`: the status-NACK variant (R5, R64). -/
abbrev srcPeriphAlt : Byte := 0xB1

/-- `CMD_LOCK` (R5). -/
abbrev cmdLock : Byte := 0x10

/-- `CMD_STATUS` (R5). -/
abbrev cmdStatus : Byte := 0x11

/-- `CMD_EVENT` (R5). -/
abbrev cmdEvent : Byte := 0x30

/-- `CMD_SETTING` (R5). -/
abbrev cmdSetting : Byte := 0x33

/-- `CMD_CONFIG` (R5). -/
abbrev cmdConfig : Byte := 0x37

/-- `CMD_DISCOVERY` (R5). -/
abbrev cmdDiscovery : Byte := 0x44

/-- The sub-codes of a lock event, `payload[0]` of a 0x30 frame (spec/30_encoding.md R65). -/
abbrev subJam : Byte := 0x09
/-- R146. -/
abbrev subPinUnlock : Byte := 0x13
/-- R147. -/
abbrev subManualLock : Byte := 0x15
/-- R148. -/
abbrev subModuleLock : Byte := 0x18
/-- R149. -/
abbrev subModuleUnlock : Byte := 0x19
/-- R150. -/
abbrev subTimeoutRelock : Byte := 0x1B
/-- R151. -/
abbrev subNfcUnlock : Byte := 0x90
/-- R152. -/
abbrev subLowBattery : Byte := 0xA7

/-- The byte that stands for "locked" in a status report and for "lock" in a lock command (R63). -/
abbrev lockedByte : Byte := 0xFF

/-- The byte that stands for "unlocked" in a status report and for "unlock" in a lock command (R63). -/
abbrev unlockedByte : Byte := 0x00

/-- `TW`: the width of `now` and of every stored timestamp. DESIGN CHOICE of the open parameter at the
value R6 suggests, entry 6. -/
abbrev tw : Nat := 32

/-- `BAUD` in bit/s: below the block boundary, used by no rule (R5). -/
def baud : Nat := 19200

/-- `DATA_BITS`: below the block boundary, used by no rule (R5). -/
def dataBits : Nat := 8

/-- `WAKE_ACTIVE`: whether an asserted wake line is electrically high. Open, used by no rule (R6, entry 26). -/
opaque wakeActive : Bool

/-- `WAKE_WIDTH`: duration of the wake pulse. Open, used by no rule (R6, entry 26). -/
opaque wakeWidth : Nat

/-- `PARITY`: open, below the block boundary, used by no rule (R6, entry 26). -/
opaque parity : Option Bool

/-- `STOP_BITS`: open, below the block boundary, used by no rule (R6, entry 26). -/
opaque stopBits : Nat

/-- FREE VALUE: what DECODE finds at an index outside the sequence it was given (spec/93_implementation_defined.md
U3: "any value" for the byte read). It has no body, so a claim about it holds for every value; entry 21. -/
opaque outOfFrameByte : List Byte → Nat → Byte

end Sys2Proof.Config

namespace Sys2Proof

/-- An unsigned `TW`-bit count of milliseconds: `now` and the stored timestamps (spec/10_state.md R18, R19). -/
abbrev Time := BitVec Config.tw

namespace Config

/-- `LAST_BYTE_RESET` (R6; the spec's default of an open parameter, entry 8). -/
abbrev lastByteReset : Time := 0

/-- `LAST_POLL_RESET` (R6; the spec's default of an open parameter, entry 8). -/
abbrev lastPollReset : Time := 0

end Config

end Sys2Proof
end

