-- ==== Sys2Proof/Syntax.lean ====
section
/-! DEFINITION. The instructions: one constructor for each row of spec/opcode_table.json
(spec/30_encoding.md R65, R66, R71). -/

namespace Sys2Proof

/-- The rows of the table. A FRAME row's operands are the frame's fields that its row does not fix; the length
byte and the checksum are functions of the rest (R61), so they are no operands. `rest` is `payload[1..]` of a
lock event, whose `payload[0]` is the sub-code the row fixes. A STEP row's operands are those of its rule. -/
inductive Instr where
  /-- `STATUS.RPT`, R144. `alt`: the source is 0xB1 instead of 0xB0 (the table's `source_variant`). -/
  | statusRpt (alt : Bool) (sequence : Byte) (payload : List Byte)
  /-- `EVT.JAM`, R145. -/
  | evtJam (sequence : Byte) (rest : List Byte)
  /-- `EVT.PIN_UNLOCK`, R146: `rest[0]`, when there is one, is the slot. -/
  | evtPinUnlock (sequence : Byte) (rest : List Byte)
  /-- `EVT.MANUAL_LOCK`, R147. -/
  | evtManualLock (sequence : Byte) (rest : List Byte)
  /-- `EVT.MODULE_LOCK`, R148. -/
  | evtModuleLock (sequence : Byte) (rest : List Byte)
  /-- `EVT.MODULE_UNLOCK`, R149. -/
  | evtModuleUnlock (sequence : Byte) (rest : List Byte)
  /-- `EVT.TIMEOUT_RELOCK`, R150. -/
  | evtTimeoutRelock (sequence : Byte) (rest : List Byte)
  /-- `EVT.NFC_UNLOCK`, R151: `rest[0]`, when there is one, is the slot. -/
  | evtNfcUnlock (sequence : Byte) (rest : List Byte)
  /-- `EVT.LOW_BATTERY`, R152. -/
  | evtLowBattery (sequence : Byte) (rest : List Byte)
  /-- `EVT.UNKNOWN`, R153: any other sub-code, or none. -/
  | evtUnknown (sequence : Byte) (payload : List Byte)
  /-- `SETTING.CHG`, R154. -/
  | settingChg (sequence : Byte) (payload : List Byte)
  /-- `CONFIG.ENTER`, R155. -/
  | configEnter (sequence : Byte) (payload : List Byte)
  /-- `DISCOVERY.REQ`, R156. -/
  | discoveryReq (sequence : Byte) (payload : List Byte)
  /-- `CMD.UNKNOWN`, R157. -/
  | cmdUnknown (command sequence : Byte) (payload : List Byte)
  /-- `LOCK.CMD.LOCK`, R177: the frame `10 A0 00 01 FF 4E`. -/
  | lockCmdLock
  /-- `LOCK.CMD.UNLOCK`, R177: the frame `10 A0 00 01 00 B1`. -/
  | lockCmdUnlock
  /-- `STATUS.REQ`, R176: the frame `11 A0 00 00 B1`. -/
  | statusReq
  /-- `SETTING.ACK`, R174: the frame `33 A1 ss 00 CK`. -/
  | settingAck (sequence : Byte)
  /-- `DISCOVERY.RPL`, R175: the frame `44 A1 ss 01 00 CK`. -/
  | discoveryRpl (sequence : Byte)
  /-- `RESET`, R240. -/
  | reset
  /-- `TICK(now, rx_bytes)`, R190. -/
  | tick (now : Time) (rxBytes : List Byte)
  /-- `LOCKREQ(target)`, R177. -/
  | lockReq (target : LockTarget)
  /-- `FEED(b, now)`, R100, R101. -/
  | feed (b : Byte) (now : Time)
  /-- `POLL(now)`, R102. -/
  | poll (now : Time)
  /-- `XSUM.COMPUTE(bytes)`, R90. -/
  | xsumCompute (bytes : List Byte)
  /-- `XSUM.VERIFY(frame)`, R91. -/
  | xsumVerify (frame : List Byte)
  /-- `VALIDATE(f)`, R121 to R125. -/
  | validate (f : List Byte)
  /-- `DECODE(f)`, R120. -/
  | decode (f : List Byte)
  /-- `DISPATCH(f)`, R140 to R143. -/
  | dispatch (f : List Byte)
  /-- `BUILD(command, source, sequence, payload)`, R170, R171. -/
  | build (command source sequence : Byte) (payload : List Byte)
  /-- `TRANSMIT()`, R172. -/
  | transmit
  /-- `SCHED.POLL(now)`, R192. -/
  | schedPoll (now : Time)
  deriving DecidableEq, Repr

end Sys2Proof
end

