-- ==== Sys2Proof/WellFormed.lean ====
section
/-! DEFINITION. Which instructions lie in the domain the spec gives them: the payload bound of
spec/30_encoding.md R60, the exclusions that make a fallback row a fallback (R71), and the operand domains of
the STEP rows. -/

namespace Sys2Proof

/-- The eight sub-codes that have a row of their own (R65). -/
def knownSubcodes : List Byte :=
  [Config.subJam, Config.subPinUnlock, Config.subManualLock, Config.subModuleLock, Config.subModuleUnlock,
    Config.subTimeoutRelock, Config.subNfcUnlock, Config.subLowBattery]

/-- The five commands that have rows of their own when received (R65). -/
def knownCommands : List Byte :=
  [Config.cmdStatus, Config.cmdEvent, Config.cmdSetting, Config.cmdConfig, Config.cmdDiscovery]

/-- A payload the frame format can carry (R60). -/
def payloadFits (p : List Byte) : Bool := decide (p.length ≤ Config.payloadMax)

/-- A lock event's payload: the sub-code and `rest` together fit (R60, R71 `requires`). -/
def restFits (rest : List Byte) : Bool := decide (rest.length + 1 ≤ Config.payloadMax)

/-- A payload that selects `EVT.UNKNOWN`: no sub-code, or one without a row (R153). -/
def noKnownSubcode : List Byte → Bool
  | [] => true
  | sub :: _ => !(knownSubcodes.contains sub)

/-- The operand of DECODE: a sequence whose length agrees with the length it declares, so that every index DECODE
reads is in range (R120). -/
def lengthAgrees (f : List Byte) : Bool :=
  match f with
  | _ :: _ :: _ :: len :: _ => decide (f.length = len.toNat + Config.overhead)
  | _ => false

/-- The instruction is in the domain its rule states. -/
def Instr.wellFormed : Instr → Bool
  | .statusRpt _ _ payload => payloadFits payload
  | .evtJam _ rest => restFits rest
  | .evtPinUnlock _ rest => restFits rest
  | .evtManualLock _ rest => restFits rest
  | .evtModuleLock _ rest => restFits rest
  | .evtModuleUnlock _ rest => restFits rest
  | .evtTimeoutRelock _ rest => restFits rest
  | .evtNfcUnlock _ rest => restFits rest
  | .evtLowBattery _ rest => restFits rest
  | .evtUnknown _ payload => payloadFits payload && noKnownSubcode payload
  | .settingChg _ payload => payloadFits payload
  | .configEnter _ payload => payloadFits payload
  | .discoveryReq _ payload => payloadFits payload
  | .cmdUnknown command _ payload => payloadFits payload && !(knownCommands.contains command)
  | .lockCmdLock => true
  | .lockCmdUnlock => true
  | .statusReq => true
  | .settingAck _ => true
  | .discoveryRpl _ => true
  | .reset => true
  | .tick _ _ => true
  | .lockReq _ => true
  | .feed _ _ => true
  | .poll _ => true
  | .xsumCompute _ => true
  | .xsumVerify _ => true
  | .validate _ => true
  | .decode f => lengthAgrees f
  | .dispatch f => decide (1 ≤ f.length) && decide (f.length ≤ Config.rxCap - 1)
  | .build _ _ _ payload => payloadFits payload
  | .transmit => true
  | .schedPoll _ => true

end Sys2Proof
end

