-- ==== Sys2Proof/Decode.lean ====
section
/-! DEFINITION. The decoder of frames (checksum, validation, field extraction, row selection), total on any
bytes and rejecting by name, and after it the encoder (spec/30_encoding.md R60 to R71, spec/40_checksum.md,
spec/42_frame_validate.md). -/

namespace Sys2Proof

/-! ### The checksum codec -/

/-- `XSUM.COMPUTE`: the XOR-fold of all bytes from 0x00 (R90; the empty sequence gives 0x00, D21, entry 20). -/
def xsum (bytes : List Byte) : Byte := bytes.foldl (fun acc b => acc ^^^ b) 0

/-- `XSUM.VERIFY`: the XOR of all but the last byte equals the last byte; false of the empty sequence
(R91, D21, entry 20). -/
def verifyXsum (s : List Byte) : Bool :=
  match s.getLast? with
  | none => false
  | some trailer => xsum s.dropLast == trailer

/-! ### Validation -/

/-- The four ways a raw frame fails validation (R122 to R125; RSPEC's error names). -/
inductive CheckError where
  /-- R122. -/
  | frameTooShort
  /-- R123. -/
  | checksumMismatch
  /-- R124. -/
  | sizeMismatch
  /-- R125. -/
  | ignoredSource
  deriving DecidableEq, Repr

/-- The value VALIDATE returns (R121). -/
inductive Verdict where
  | ok
  | error (code : CheckError)
  deriving DecidableEq, Repr

/-- Byte `i` of a byte sequence; outside the sequence, a free value (entry 21). VALIDATE and DISPATCH read
only indices that exist (R122, R120). -/
def rawByte (f : List Byte) (i : Nat) : Byte := f.getD i (Config.outOfFrameByte f i)

/-- The source filter of check 4 (R125). -/
def sourceAccepted (command source : Byte) : Bool :=
  source == Config.srcPeriph || (source == Config.srcPeriphAlt && command == Config.cmdStatus)

/-- `VALIDATE(f)`: the pipeline of four checks, in the order that R121 makes normative; the first that fails
decides. The sum in check 3 is a natural number, without wrap (R127). -/
def validateFrame (f : List Byte) : Verdict :=
  if ¬ (Config.minFrame ≤ f.length) then .error .frameTooShort
  else if ¬ (verifyXsum f = true) then .error .checksumMismatch
  else if ¬ (f.length = (rawByte f 3).toNat + Config.overhead) then .error .sizeMismatch
  else if ¬ (sourceAccepted (rawByte f 0) (rawByte f 1) = true) then .error .ignoredSource
  else .ok

/-! ### From bytes to the structured frame -/

/-- `DECODE(f)`: the fields of the frame; the payload is `f[4 .. 3+L]`, and the checksum is no part of it
(R120). -/
def decodeFields (f : List Byte) : Frame :=
  { command := rawByte f 0
    source := rawByte f 1
    sequence := rawByte f 2
    payload := (List.range (rawByte f 3).toNat).map (fun k => rawByte f (Config.hdrLen + k)) }

/-! ### Row selection -/

/-- The row of a lock event, by its sub-code (R65, R142). -/
def selectEvent (sequence : Byte) : List Byte → Instr
  | [] => .evtUnknown sequence []
  | sub :: rest =>
    if sub = Config.subJam then .evtJam sequence rest
    else if sub = Config.subPinUnlock then .evtPinUnlock sequence rest
    else if sub = Config.subManualLock then .evtManualLock sequence rest
    else if sub = Config.subModuleLock then .evtModuleLock sequence rest
    else if sub = Config.subModuleUnlock then .evtModuleUnlock sequence rest
    else if sub = Config.subTimeoutRelock then .evtTimeoutRelock sequence rest
    else if sub = Config.subNfcUnlock then .evtNfcUnlock sequence rest
    else if sub = Config.subLowBattery then .evtLowBattery sequence rest
    else .evtUnknown sequence (sub :: rest)

/-- The rx row that a validated frame selects, by its command and, for 0x30, its sub-code (R65, R71). -/
def selectRx (fr : Frame) : Instr :=
  if fr.command = Config.cmdStatus then
    .statusRpt (fr.source == Config.srcPeriphAlt) fr.sequence fr.payload
  else if fr.command = Config.cmdEvent then selectEvent fr.sequence fr.payload
  else if fr.command = Config.cmdSetting then .settingChg fr.sequence fr.payload
  else if fr.command = Config.cmdConfig then .configEnter fr.sequence fr.payload
  else if fr.command = Config.cmdDiscovery then .discoveryReq fr.sequence fr.payload
  else .cmdUnknown fr.command fr.sequence fr.payload

/-- The tx row whose frame this is, if it is one the block sends (R66). -/
def selectTx (fr : Frame) : Option Instr :=
  if fr = ⟨Config.cmdLock, Config.srcCtrl, 0, [Config.lockedByte]⟩ then some .lockCmdLock
  else if fr = ⟨Config.cmdLock, Config.srcCtrl, 0, [Config.unlockedByte]⟩ then some .lockCmdUnlock
  else if fr = ⟨Config.cmdStatus, Config.srcCtrl, 0, []⟩ then some .statusReq
  else if fr = ⟨Config.cmdSetting, Config.srcCtrlReply, fr.sequence, []⟩ then some (.settingAck fr.sequence)
  else if fr = ⟨Config.cmdDiscovery, Config.srcCtrlReply, fr.sequence, [0]⟩ then
    some (.discoveryRpl fr.sequence)
  else none

/-! ### The decoder -/

/-- Why bytes are no frame of the table. -/
inductive Reject where
  /-- One of the four checks fails, and the bytes are no frame the block sends (R68). -/
  | check (code : CheckError)
  /-- Well-formed, but longer than the 40 bytes of the frame format (R60). -/
  | overLong
  deriving DecidableEq, Repr

/-- The instruction that a frame's bytes stand for. The direction is told by the source alone (R67): a
validated frame is one of the rx rows, a well-formed frame from another source one of the tx rows or
rejected. This is the decoder of table rows; RECEPTION goes through VALIDATE and never selects a tx row
(entry 29). -/
def decodeFrame (raw : List Byte) : Except Reject Instr :=
  match validateFrame raw with
  | .ok =>
    if (decodeFields raw).payload.length ≤ Config.payloadMax then .ok (selectRx (decodeFields raw))
    else .error .overLong
  | .error .ignoredSource =>
    match selectTx (decodeFields raw) with
    | some i => .ok i
    | none => .error (.check .ignoredSource)
  | .error code => .error (.check code)

/-! ### The encoder -/

/-- The bytes BUILD assembles for a frame: header, payload, and the XOR of them all (R170). -/
def frameBytes (fr : Frame) : List Byte :=
  let body := [fr.command, fr.source, fr.sequence, BitVec.ofNat 8 fr.payload.length] ++ fr.payload
  body ++ [xsum body]

/-- The frame an instruction of format FRAME stands for; a STEP row has no encoding (R65, R66, R71). -/
def Instr.frame? : Instr → Option Frame
  | .statusRpt alt sequence payload =>
    some ⟨Config.cmdStatus, if alt then Config.srcPeriphAlt else Config.srcPeriph, sequence, payload⟩
  | .evtJam sequence rest => some ⟨Config.cmdEvent, Config.srcPeriph, sequence, Config.subJam :: rest⟩
  | .evtPinUnlock sequence rest =>
    some ⟨Config.cmdEvent, Config.srcPeriph, sequence, Config.subPinUnlock :: rest⟩
  | .evtManualLock sequence rest =>
    some ⟨Config.cmdEvent, Config.srcPeriph, sequence, Config.subManualLock :: rest⟩
  | .evtModuleLock sequence rest =>
    some ⟨Config.cmdEvent, Config.srcPeriph, sequence, Config.subModuleLock :: rest⟩
  | .evtModuleUnlock sequence rest =>
    some ⟨Config.cmdEvent, Config.srcPeriph, sequence, Config.subModuleUnlock :: rest⟩
  | .evtTimeoutRelock sequence rest =>
    some ⟨Config.cmdEvent, Config.srcPeriph, sequence, Config.subTimeoutRelock :: rest⟩
  | .evtNfcUnlock sequence rest =>
    some ⟨Config.cmdEvent, Config.srcPeriph, sequence, Config.subNfcUnlock :: rest⟩
  | .evtLowBattery sequence rest =>
    some ⟨Config.cmdEvent, Config.srcPeriph, sequence, Config.subLowBattery :: rest⟩
  | .evtUnknown sequence payload => some ⟨Config.cmdEvent, Config.srcPeriph, sequence, payload⟩
  | .settingChg sequence payload => some ⟨Config.cmdSetting, Config.srcPeriph, sequence, payload⟩
  | .configEnter sequence payload => some ⟨Config.cmdConfig, Config.srcPeriph, sequence, payload⟩
  | .discoveryReq sequence payload => some ⟨Config.cmdDiscovery, Config.srcPeriph, sequence, payload⟩
  | .cmdUnknown command sequence payload => some ⟨command, Config.srcPeriph, sequence, payload⟩
  | .lockCmdLock => some ⟨Config.cmdLock, Config.srcCtrl, 0, [Config.lockedByte]⟩
  | .lockCmdUnlock => some ⟨Config.cmdLock, Config.srcCtrl, 0, [Config.unlockedByte]⟩
  | .statusReq => some ⟨Config.cmdStatus, Config.srcCtrl, 0, []⟩
  | .settingAck sequence => some ⟨Config.cmdSetting, Config.srcCtrlReply, sequence, []⟩
  | .discoveryRpl sequence => some ⟨Config.cmdDiscovery, Config.srcCtrlReply, sequence, [0]⟩
  | .reset => none
  | .tick _ _ => none
  | .lockReq _ => none
  | .feed _ _ => none
  | .poll _ => none
  | .xsumCompute _ => none
  | .xsumVerify _ => none
  | .validate _ => none
  | .decode _ => none
  | .dispatch _ => none
  | .build _ _ _ _ => none
  | .transmit => none
  | .schedPoll _ => none

/-- The bytes of an instruction, index 0 first on the wire; none for a STEP row, which has no encoding. -/
def encode (i : Instr) : List Byte :=
  match i.frame? with
  | some fr => frameBytes fr
  | none => []

/-- The instruction is a row of format FRAME, direction rx: a frame the peripheral sends (R65). -/
def Instr.isRx (i : Instr) : Bool :=
  match i.frame? with
  | some fr => sourceAccepted fr.command fr.source
  | none => false

/-- The instruction is a row of format FRAME, direction tx: a frame the block sends (R66). -/
def Instr.isTx (i : Instr) : Bool :=
  match i.frame? with
  | some fr => !(sourceAccepted fr.command fr.source)
  | none => false

/-! ### The table's own numbering -/

/-- The five-byte prefix of a frame as the 40-bit number of R71: `command` in bits 39:32, the fifth byte in
bits 7:0. -/
def tablePrefix (raw : List Byte) : BitVec 40 :=
  rawByte raw 0 ++ rawByte raw 1 ++ rawByte raw 2 ++ rawByte raw 3 ++ rawByte raw 4

/-- `match` and `mask` of the instruction's row, as spec/opcode_table.json gives them; none for a STEP row. -/
def Instr.tableRow : Instr → Option (BitVec 40 × BitVec 40)
  | .statusRpt _ _ _ => some (0x11B0000000, 0xFFFE000000)
  | .evtJam _ _ => some (0x30B0000009, 0xFFFF0000FF)
  | .evtPinUnlock _ _ => some (0x30B0000013, 0xFFFF0000FF)
  | .evtManualLock _ _ => some (0x30B0000015, 0xFFFF0000FF)
  | .evtModuleLock _ _ => some (0x30B0000018, 0xFFFF0000FF)
  | .evtModuleUnlock _ _ => some (0x30B0000019, 0xFFFF0000FF)
  | .evtTimeoutRelock _ _ => some (0x30B000001B, 0xFFFF0000FF)
  | .evtNfcUnlock _ _ => some (0x30B0000090, 0xFFFF0000FF)
  | .evtLowBattery _ _ => some (0x30B00000A7, 0xFFFF0000FF)
  | .evtUnknown _ _ => some (0x30B0000000, 0xFFFF000000)
  | .settingChg _ _ => some (0x33B0000000, 0xFFFF000000)
  | .configEnter _ _ => some (0x37B0000000, 0xFFFF000000)
  | .discoveryReq _ _ => some (0x44B0000000, 0xFFFF000000)
  | .cmdUnknown _ _ _ => some (0x00B0000000, 0x00FF000000)
  | .lockCmdLock => some (0x10A00001FF, 0xFFFFFFFFFF)
  | .lockCmdUnlock => some (0x10A0000100, 0xFFFFFFFFFF)
  | .statusReq => some (0x11A0000000, 0xFFFFFFFF00)
  | .settingAck _ => some (0x33A1000000, 0xFFFF00FF00)
  | .discoveryRpl _ => some (0x44A1000100, 0xFFFF00FFFF)
  | .reset => none
  | .tick _ _ => none
  | .lockReq _ => none
  | .feed _ _ => none
  | .poll _ => none
  | .xsumCompute _ => none
  | .xsumVerify _ => none
  | .validate _ => none
  | .decode _ => none
  | .dispatch _ => none
  | .build _ _ _ _ => none
  | .transmit => none
  | .schedPoll _ => none

/-- Byte `k` counted from the least significant of a table word. -/
def wordByte (w k : Nat) : Byte := BitVec.ofNat 8 (w >>> (8 * k))

/-- The bytes of the frame that a table word stands for. R71 numbers the five-byte prefix with `command` in
bits 39:32 and `payload[0]` in bits 7:0. The table gives no bits to the payload bytes after the first, which are
taken as 0x00, nor to the checksum, which is taken as the XOR of the bytes before it, since an rx row is selected
only for a validated frame. Where the bits of `payload_length` are 0, bits 7:0 are the checksum if they are 0x00
or the right checksum; any other byte there is `payload[0]` of the shortest frame that has one, of length 1, as
the `requires` of the rows that name it says. DESIGN CHOICE, entry 5. -/
def tableFrame (w : Nat) : List Byte :=
  let header := [wordByte w 4, wordByte w 3, wordByte w 2]
  let withPayload := fun (len : Byte) (more : Nat) =>
    let body := header ++ [len, wordByte w 0] ++ List.replicate more 0
    body ++ [xsum body]
  match (wordByte w 1).toNat with
  | 0 =>
    if wordByte w 0 = 0 ∨ wordByte w 0 = xsum header then header ++ [0, xsum header] else withPayload 1 0
  | more + 1 => withPayload (wordByte w 1) more

/-- The instruction the decoder reads from a table word of `nbits` bits. -/
def decodeTableWord (nbits w : Nat) : Option Instr :=
  match decodeFrame (tableFrame (w % 2 ^ nbits)) with
  | .ok i => some i
  | .error _ => none

end Sys2Proof
end

