-- ==== Sys2Proof/Machine/State.lean ====
section
/-! DEFINITION. The state of the block (spec/10_state.md R10), its outputs (R24 to R26), the environment's
pending steps, and the state after reset (R30, spec/70_reset_and_hazards.md R240). -/

namespace Sys2Proof.Machine

/-! ### Outputs -/

/-- The two levels of the wake line; which is electrically high is open (R173). -/
inductive Level where
  | asserted
  | deasserted
  deriving DecidableEq, Repr

/-- Who or what actuated the lock (R25). `self` of the spec is written `selfModule`. -/
inductive LockSource where
  | pin
  | nfc
  | user
  | selfModule
  | timeout
  | jam
  deriving DecidableEq, Repr

/-- The values the event port carries (R25). -/
inductive Event where
  | statusChanged (locked : Bool)
  | lockActuated (source : LockSource) (slot : Option Byte) (locked : Option Bool)
  | lowBattery
  | discoveryRequest
  | settingChanged
  | unknownCommand (command sequence length : Byte)
  deriving DecidableEq, Repr

/-- A diagnostic and its `info` (spec/60_exceptions.md R210). -/
inductive Diag where
  /-- Code 1; the length reached. -/
  | frameOverflow (reached : Nat)
  /-- Code 2; the received length. -/
  | frameTooShort (received : Nat)
  /-- Code 3; the computed and the received checksum. -/
  | checksumMismatch (computed received : Byte)
  /-- Code 4; the received length and the declared payload length. -/
  | sizeMismatch (received : Nat) (declared : Byte)
  /-- Code 5; the source and the command. -/
  | ignoredSource (source command : Byte)
  /-- Code 6. -/
  | unknownCommand (command sequence length : Byte)
  /-- Code 7; the sub-code, if there is one. -/
  | unknownSubcode (subcode : Option Byte)
  /-- Code 8: a notice, no error. -/
  | configEnterNotice
  deriving DecidableEq, Repr

/-- One item of the output trace (R24). -/
inductive Output where
  | wake (level : Level)
  | txByte (b : Byte)
  | event (e : Event)
  | diag (d : Diag)
  deriving DecidableEq, Repr

/-! ### The model's own carriers -/

/-- The value an operation returned to its caller (entry 3). -/
inductive Returned where
  | nothing
  /-- XSUM.COMPUTE, R90. -/
  | checksum (value : Byte)
  /-- XSUM.VERIFY, R91. -/
  | verified (value : Bool)
  /-- VALIDATE, R121. -/
  | verdict (value : Verdict)
  /-- DECODE, R120. -/
  | decoded (value : Frame)
  /-- POLL, R102: the raw frame, if one was delivered. -/
  | polled (value : Option (List Byte))
  /-- BUILD, R170. -/
  | built (value : List Byte)
  deriving DecidableEq, Repr

/-- One line of the environment's script (spec/30_encoding.md R72): an instruction by its name and operands, or
a frame as its bytes. -/
inductive Line where
  | named (i : Instr)
  | literal (raw : List Byte)
  deriving DecidableEq, Repr

/-! ### Storage -/

/-- A byte-addressed space: the cells whose byte is not the one an unlisted address reads as, addresses
strictly rising (R21). -/
structure Memory where
  cells : List Host.Cell
  deriving DecidableEq, Repr

/-! ### The state record -/

/-- The state record of R10, and after it the model's own three fields (entries 1 to 3). -/
structure State where
  /-- The assembly buffer, addresses 0 to 39 (R11). -/
  rxBuf : Memory
  /-- The number of bytes held, and the index of the next (R15). -/
  rxLen : Fin Config.rxCap
  /-- When the last byte was stored (R18). -/
  lastByteTime : Time
  /-- The peripheral has responded at least once (R16). -/
  discovered : Bool
  /-- When the last status request was sent (R19). -/
  lastPoll : Time
  /-- The next SCHED.POLL sends whatever the time (R17). -/
  pollForce : Bool
  /-- The outgoing frame register, addresses 0 to 39 (R12). -/
  txBuf : Memory
  /-- The number of bytes of the frame last built (R12). -/
  txLen : Fin (Config.txCap + 1)
  /-- MODEL: the environment's steps not yet taken, oldest first (entry 1). -/
  pending : List Line
  /-- MODEL: the output trace so far, oldest first (entry 2). -/
  trace : List Output
  /-- MODEL: what the last value-returning operation returned (entry 3). -/
  returned : Returned
  deriving DecidableEq, Repr

/-- The block has no fault: an error is an output and never an abnormal end (spec/00_scope.md R8,
spec/60_exceptions.md R232), so nothing raises one. -/
inductive Fault : Type
  deriving DecidableEq, Repr

/-- Why a step is given no meaning. -/
inductive Refusal where
  /-- Raised by an arm of `exec` whose instruction has no meaning yet. Safe: nothing is claimed of it. -/
  | notModelled (mnemonic : String)
  /-- Raised by BUILD alone, for a payload of more than 35 bytes, which cannot be encoded: "give BUILD no
  meaning outside it" (spec/44_encode_transmit.md R171, spec/93_implementation_defined.md U11 `refuse`). Safe:
  nothing is claimed of it (entry 19). -/
  | payloadTooLong
  deriving DecidableEq, Repr

/-- The block right after reset (R30, R240). The buffers' contents are unspecified there and a model may use 0
(DESIGN CHOICE, entry 9); the two timestamps are the spec's defaults of open parameters (entry 8); nothing is
pending, no output has been made and no value returned (DESIGN CHOICE, entries 1 to 3). -/
def State.reset : State where
  rxBuf := ⟨[]⟩
  rxLen := 0
  lastByteTime := Config.lastByteReset
  discovered := false
  lastPoll := Config.lastPollReset
  pollForce := false
  txBuf := ⟨[]⟩
  txLen := 0
  pending := []
  trace := []
  returned := .nothing

end Sys2Proof.Machine
end

