-- ==== Sys2Proof/Machine/Ops.lean ====
section
/-! DEFINITION. The named operations over the two buffers, the clock, the output trace and the frame being sent
(spec/00_scope.md R7), with the raising of a diagnostic as the one shared operation that takes the place of an
exception (spec/60_exceptions.md). -/

namespace Sys2Proof.Machine

/-- What a meaning answers. -/
abbrev Answer := Host.Outcome State Fault Refusal

/-! ### Byte-addressed storage -/

/-- What an unlisted address reads as: the byte both buffers hold everywhere after reset (entry 10). -/
def Memory.fill : Byte := 0

/-- The byte at an address in a list of cells. -/
def readCells : List Host.Cell → Nat → Byte
  | [], _ => Memory.fill
  | (x, v) :: rest, a => if x = a then v else readCells rest a

/-- One byte of the space (R45). -/
def Memory.read (m : Memory) (a : Nat) : Byte := readCells m.cells a

/-- The cells without those of one address. -/
def dropCell (a : Nat) (cells : List Host.Cell) : List Host.Cell := cells.filter (fun c => decide (c.1 ≠ a))

/-- A cell put before the first cell of a higher address. -/
def placeCell (a : Nat) (b : Byte) : List Host.Cell → List Host.Cell
  | [] => [(a, b)]
  | (x, v) :: rest => if a < x then (a, b) :: (x, v) :: rest else (x, v) :: placeCell a b rest

/-- The cells with one byte written: the address is listed unless it holds what an unlisted one reads as. -/
def writeCells (cells : List Host.Cell) (a : Nat) (b : Byte) : List Host.Cell :=
  if b = Memory.fill then dropCell a cells else placeCell a b (dropCell a cells)

/-- Store one byte (R45). -/
def Memory.write (m : Memory) (a : Nat) (b : Byte) : Memory := ⟨writeCells m.cells a b⟩

/-- `MemRead(a, n)`: the bytes at `a .. a+n-1` (R7). -/
def Memory.readBytes (m : Memory) (a n : Nat) : List Byte := (List.range n).map (fun k => m.read (a + k))

/-- `MemWrite(a, n, v)`: the bytes of `v` at `a .. a+n-1` (R7). -/
def Memory.writeBytes (m : Memory) (a : Nat) : List Byte → Memory
  | [] => m
  | b :: rest => (m.write a b).writeBytes (a + 1) rest

/-- All cells lie above an address, rise strictly, and hold no fill byte. -/
def cellsWfFrom : Nat → List Host.Cell → Bool
  | _, [] => true
  | low, (x, v) :: rest => decide (low ≤ x) && decide (v ≠ Memory.fill) && cellsWfFrom (x + 1) rest

/-- The canonical form: addresses strictly rising, no cell equal to what an unlisted address reads as. -/
def Memory.wf (m : Memory) : Bool := cellsWfFrom 0 m.cells

/-- Every cell lies in a space of `cap` bytes (R44: no rule produces an index outside it). -/
def Memory.within (cap : Nat) (m : Memory) : Bool := m.cells.all (fun c => decide (c.1 < cap))

/-! ### The clock -/

/-- `elapsed(a, b)`: the difference of two timestamps modulo `2^TW` (R7). -/
def elapsed (a b : Time) : Nat := (a - b).toNat

/-! ### Outputs -/

/-- Append outputs to the trace, in order (R7 `emit`, R49). -/
def emit (os : List Output) (s : State) : State := { s with trace := s.trace ++ os }

/-- `raise`: emit a diagnostic. It transfers no control: there is no handler, nothing is saved and there is
nothing to return from (R7, R221, R232). The state change that goes with an error is stated by the rule that
raises it. -/
def raise (d : Diag) (s : State) : State := emit [.diag d] s

/-- The numeric code of a diagnostic (R210). -/
def Diag.code : Diag → Nat
  | .frameOverflow _ => 1
  | .frameTooShort _ => 2
  | .checksumMismatch _ _ => 3
  | .sizeMismatch _ _ => 4
  | .ignoredSource _ _ => 5
  | .unknownCommand _ _ _ => 6
  | .unknownSubcode _ => 7
  | .configEnterNotice => 8

/-- `info(code, f)`: the diagnostic for a raw frame that failed a check (R210). -/
def checkDiag (code : CheckError) (f : List Byte) : Diag :=
  match code with
  | .frameTooShort => .frameTooShort f.length
  | .checksumMismatch => .checksumMismatch (xsum f.dropLast) (rawByte f (f.length - 1))
  | .sizeMismatch => .sizeMismatch f.length (rawByte f 3)
  | .ignoredSource => .ignoredSource (rawByte f 1) (rawByte f 0)

/-- Record the value an operation returns (entry 3). -/
def giveBack (v : Returned) (s : State) : State := { s with returned := v }

/-! ### The outgoing frame -/

/-- A frame to send. Its payload carries the precondition of BUILD with it (R171, D20). -/
structure OutFrame where
  command : Byte
  source : Byte
  sequence : Byte
  payload : List Byte
  fits : payload.length ≤ Config.payloadMax
  deriving DecidableEq, Repr

/-- The frame without its bound. -/
def OutFrame.frame (o : OutFrame) : Frame := ⟨o.command, o.source, o.sequence, o.payload⟩

/-- The effect of BUILD: the frame's bytes go to `tx_buf[0 .. 4+L]` and their number to `tx_len`; the bytes
above keep what they held (R170). -/
def build (o : OutFrame) (s : State) : State :=
  { s with
    txBuf := s.txBuf.writeBytes 0 (frameBytes o.frame)
    txLen := ⟨Config.overhead + o.payload.length, by
      have h := o.fits
      simp only [Config.overhead, Config.txCap, Config.payloadMax] at *
      omega⟩ }

/-- The outputs of one transmission: the wake pulse, then the bytes in index order (R172, R51). -/
def sendOutputs (bytes : List Byte) : List Output :=
  .wake .asserted :: .wake .deasserted :: bytes.map .txByte

/-- The effect of TRANSMIT: it sends the frame that `tx_buf` holds and changes no state (R172). -/
def transmit (s : State) : State := emit (sendOutputs (s.txBuf.readBytes 0 s.txLen)) s

/-- BUILD followed at once by TRANSMIT, the only way the block's own rules use either (R12, R174 to R177). -/
def send (o : OutFrame) (s : State) : State := transmit (build o s)

end Sys2Proof.Machine
end

