-- ==== Sys2Proof/Machine/Checksum.lean ====
section
/-! DEFINITION. The operations of the checksum codec (spec/40_checksum.md). They touch no state of the block;
their value is given back. -/

namespace Sys2Proof.Machine

/-- `XSUM.COMPUTE(bytes)` (R90). -/
def execXsumCompute (bytes : List Byte) (s : State) : Answer := .next (giveBack (.checksum (xsum bytes)) s)

/-- `XSUM.VERIFY(frame)` (R91). -/
def execXsumVerify (frame : List Byte) (s : State) : Answer := .next (giveBack (.verified (verifyXsum frame)) s)

end Sys2Proof.Machine
end

