-- ==== Sys2Proof/Machine/Reset.lean ====
section
/-! DEFINITION. The RESET step (spec/70_reset_and_hazards.md R240, R241). -/

namespace Sys2Proof.Machine

/-- `RESET`: every field of the block's state takes its reset value; no output is emitted, and what the
environment holds (its pending steps, the outputs already made, a value already returned) is not the block's to
clear (R240, R241; entries 9, 34). -/
def resetBlock (s : State) : State :=
  { State.reset with pending := s.pending, trace := s.trace, returned := s.returned }

/-- `RESET` as an instruction (R240). -/
def execReset (s : State) : Answer := .next (resetBlock s)

end Sys2Proof.Machine
end

