-- ==== Sys2Proof/Machine/Flags.lean ====
section
/-! DEFINITION. The two flags of the block and the two timers' conditions (spec/10_state.md R16, R17,
spec/60_exceptions.md R227). -/

namespace Sys2Proof.Machine

/-- Set `discovered`, as every validated frame does (R16, R141). -/
def markDiscovered (s : State) : State := { s with discovered := true }

/-- Set `poll_force`, as a validated discovery frame does; the others leave it (R17, R140). -/
def forcePoll (force : Bool) (s : State) : State := if force then { s with pollForce := true } else s

/-- The RX idle timer has expired: bytes are held and the silence is strictly longer than `T_FRAME` (R102,
R191, R227). -/
def frameDue (now : Time) (s : State) : Bool :=
  decide (0 < s.rxLen.val) && decide (Config.tFrame < elapsed now s.lastByteTime)

/-- A status request is to be sent: the peripheral is discovered, and the poll is forced or its interval is
strictly exceeded (R192, R227). -/
def pollDue (now : Time) (s : State) : Bool :=
  s.discovered && (s.pollForce || decide (Config.tPoll < elapsed now s.lastPoll))

end Sys2Proof.Machine
end

