-- ==== Sys2Proof/Machine/Assembler.lean ====
section
/-! DEFINITION. The frame assembler: FEED with its overflow case, and POLL (spec/41_frame_assembler.md). -/

namespace Sys2Proof.Machine

/-- The byte is stored at `rx_len` and the time recorded (R100, the first and third lines). -/
def storeByte (b : Byte) (now : Time) (s : State) : State :=
  { s with rxBuf := s.rxBuf.write s.rxLen b, lastByteTime := now }

/-- `FEED(b, now)` (R100). When the advanced length equals `RX_CAP` the bytes held are discarded by setting the
length to 0 (R101); the buffer's contents stay, unread (R11). -/
def feed (b : Byte) (now : Time) (s : State) : State :=
  if full : s.rxLen.val + 1 = Config.rxCap then
    { raise (.frameOverflow Config.rxCap) (storeByte b now s) with rxLen := 0 }
  else
    { storeByte b now s with rxLen := ⟨s.rxLen.val + 1, by have h := s.rxLen.isLt; omega⟩ }

/-- All bytes of `rx_bytes`, in arrival order, with one time for them all (R190 phase 1). -/
def feedAll (now : Time) : List Byte → State → State
  | [], s => s
  | b :: rest, s => feedAll now rest (feed b now s)

/-- The bytes held, `rx_buf[0 .. rx_len-1]`. -/
def heldBytes (s : State) : List Byte := s.rxBuf.readBytes 0 s.rxLen

/-- `POLL(now)`: the raw frame, if one is delivered, and the state after it (R102). -/
def poll (now : Time) (s : State) : Option (List Byte) × State :=
  if frameDue now s then (some (heldBytes s), { s with rxLen := 0 }) else (none, s)

/-- `FEED(b, now)` as an instruction (R100). -/
def execFeed (b : Byte) (now : Time) (s : State) : Answer := .next (feed b now s)

/-- `POLL(now)` as an instruction: the frame, if any, is given back (R102). -/
def execPoll (now : Time) (s : State) : Answer :=
  .next (giveBack (.polled (poll now s).1) (poll now s).2)

end Sys2Proof.Machine
end

