-- ==== Sys2Proof/Machine/Operands.lean ====
section
/-! DEFINITION. Where each operand is taken from (spec/30_encoding.md R63). Every operand is a whole byte,
unsigned, with no shifting or extension. -/

namespace Sys2Proof.Machine

/-- The lock-state byte of a status report, `payload[0]`, when there is one (R63, R144). -/
def lockStateByte (fr : Frame) : Option Byte := fr.payload[0]?

/-- The sub-code of a lock event, `payload[0]`, when there is one (R63, R159). -/
def subcode (fr : Frame) : Option Byte := fr.payload[0]?

/-- The slot, `payload[1]` when `L >= 2`, else none (R146, R151; D14, entry 13). -/
def slot (fr : Frame) : Option Byte := fr.payload[1]?

/-- The payload length as the header's byte `payload_length` (R153, R157; D15, entry 14). -/
def payloadLength (fr : Frame) : Byte := BitVec.ofNat 8 fr.payload.length

/-- The target byte of a lock command (R63, R177). -/
def targetByte (target : LockTarget) : Byte :=
  match target with
  | .lock => Config.lockedByte
  | .unlock => Config.unlockedByte

/-- What a status report's lock-state byte says; nothing for the values RSPEC gives no event for (R144; D12,
entry 12). -/
def lockState (b : Byte) : Option Bool :=
  if b = Config.lockedByte then some true
  else if b = Config.unlockedByte then some false
  else none

end Sys2Proof.Machine
end

