-- ==== Sys2Proof/Machine/Dispatcher.lean ====
section
/-! DEFINITION. The protocol dispatcher: one pure rule per command and sub-code, DISPATCH, which alone performs
effects, and the received frames as instructions (spec/43_dispatch.md). -/

namespace Sys2Proof.Machine

/-- What a command rule asks for (spec/43_dispatch.md, `Result`). A field not given is absent. -/
structure Result where
  diag : Option Diag := none
  event : Option Event := none
  reply : Option OutFrame := none
  force : Bool := false
  deriving DecidableEq, Repr

/-! ### The command rules -/

/-- `STATUS.RPT` (R144): an event for the two bytes RSPEC gives one for, else nothing (D12, entry 12). -/
def statusReport (fr : Frame) : Result :=
  { event := ((lockStateByte fr).bind lockState).map .statusChanged }

/-- `EVT.JAM` (R145; D11, entry 11). -/
def jamEvent : Result := { event := some (.lockActuated .jam none none) }

/-- `EVT.PIN_UNLOCK` (R146; D11, D14, entries 11, 13). -/
def pinUnlockEvent (fr : Frame) : Result := { event := some (.lockActuated .pin (slot fr) (some false)) }

/-- `EVT.MANUAL_LOCK` (R147; D11, entry 11). -/
def manualLockEvent : Result := { event := some (.lockActuated .user none (some true)) }

/-- `EVT.MODULE_LOCK` (R148; D11, entry 11). -/
def moduleLockEvent : Result := { event := some (.lockActuated .selfModule none (some true)) }

/-- `EVT.MODULE_UNLOCK` (R149; D11, entry 11). -/
def moduleUnlockEvent : Result := { event := some (.lockActuated .selfModule none (some false)) }

/-- `EVT.TIMEOUT_RELOCK` (R150; D11, entry 11). -/
def timeoutRelockEvent : Result := { event := some (.lockActuated .timeout none (some true)) }

/-- `EVT.NFC_UNLOCK` (R151; D11, D14, entries 11, 13). -/
def nfcUnlockEvent (fr : Frame) : Result := { event := some (.lockActuated .nfc (slot fr) (some false)) }

/-- `EVT.LOW_BATTERY` (R152). -/
def lowBatteryEvent : Result := { event := some .lowBattery }

/-- `EVT.UNKNOWN` (R153; the empty payload: D13, entry 13; the length: D15, entry 14). -/
def unknownEvent (fr : Frame) : Result :=
  { diag := some (.unknownSubcode (subcode fr))
    event := some (.unknownCommand Config.cmdEvent fr.sequence (payloadLength fr)) }

/-- `SETTING.CHG` (R154): the acknowledgement echoes command and sequence and carries no payload. -/
def settingChanged (fr : Frame) : Result :=
  { event := some .settingChanged
    reply := some ⟨fr.command, Config.srcCtrlReply, fr.sequence, [], by decide⟩ }

/-- `CONFIG.ENTER` (R155). -/
def configEntered : Result := { diag := some .configEnterNotice }

/-- `DISCOVERY.REQ` (R156): the reply, and a forced status poll. -/
def discoveryRequested (fr : Frame) : Result :=
  { event := some .discoveryRequest
    reply := some ⟨fr.command, Config.srcCtrlReply, fr.sequence, [0x00], by decide⟩
    force := true }

/-- `CMD.UNKNOWN` (R157; the length: D15, entry 14). -/
def unknownCommand (fr : Frame) : Result :=
  { diag := some (.unknownCommand fr.command fr.sequence (payloadLength fr))
    event := some (.unknownCommand fr.command fr.sequence (payloadLength fr)) }

/-! ### Command selection -/

/-- `EVT(fr)`: the rule a lock event's sub-code selects (R142). -/
def eventRule (fr : Frame) : Result :=
  match subcode fr with
  | none => unknownEvent fr
  | some sub =>
    if sub = Config.subJam then jamEvent
    else if sub = Config.subPinUnlock then pinUnlockEvent fr
    else if sub = Config.subManualLock then manualLockEvent
    else if sub = Config.subModuleLock then moduleLockEvent
    else if sub = Config.subModuleUnlock then moduleUnlockEvent
    else if sub = Config.subTimeoutRelock then timeoutRelockEvent
    else if sub = Config.subNfcUnlock then nfcUnlockEvent fr
    else if sub = Config.subLowBattery then lowBatteryEvent
    else unknownEvent fr

/-- `COMMAND(fr)`: selection on the command alone; the source plays no further part (R142; D30, entry 24). -/
def commandRule (fr : Frame) : Result :=
  if fr.command = Config.cmdStatus then statusReport fr
  else if fr.command = Config.cmdEvent then eventRule fr
  else if fr.command = Config.cmdSetting then settingChanged fr
  else if fr.command = Config.cmdConfig then configEntered
  else if fr.command = Config.cmdDiscovery then discoveryRequested fr
  else unknownCommand fr

/-! ### Effects -/

/-- The diagnostic, if any, then the event, if any (R143). -/
def Result.notices (r : Result) : List Output := (r.diag.map Output.diag).toList ++ (r.event.map Output.event).toList

/-- Send the reply, if there is one (R140). -/
def sendReply (reply : Option OutFrame) (s : State) : State :=
  match reply with
  | none => s
  | some o => send o s

/-- What DISPATCH does for a validated frame once its rule's result is known: `discovered` is set (R141), the
notices are emitted, the poll is forced if asked, and the reply is sent at once (R140, R143; D17, D18,
entry 16). -/
def perform (r : Result) (s : State) : State :=
  sendReply r.reply (forcePoll r.force (emit r.notices (markDiscovered s)))

/-- `DISPATCH(f)` (R140): a frame that fails validation is dropped with one diagnostic and nothing else (R216). -/
def dispatch (f : List Byte) (s : State) : State :=
  match validateFrame f with
  | .error code => raise (checkDiag code f) s
  | .ok => perform (commandRule (decodeFields f)) s

/-- `DISPATCH(f)` as an instruction, total for any length (R140; entry 22). -/
def execDispatch (f : List Byte) (s : State) : Answer := .next (dispatch f s)

/-! ### The received frames as instructions

Each is what DISPATCH does with the frame once it is validated (R65, R71: a row is selected only then). -/

/-- A validated lock event with the given sub-code. -/
def eventFrame (sequence sub : Byte) (rest : List Byte) : Frame :=
  ⟨Config.cmdEvent, Config.srcPeriph, sequence, sub :: rest⟩

/-- `STATUS.RPT`: `11 B0|B1 ss LL pp .. CK` (R144). -/
def execStatusRpt (alt : Bool) (sequence : Byte) (payload : List Byte) (s : State) : Answer :=
  .next (perform (statusReport
    ⟨Config.cmdStatus, if alt then Config.srcPeriphAlt else Config.srcPeriph, sequence, payload⟩) s)

/-- `EVT.JAM`: `30 B0 ss LL 09 .. CK`; nothing of the frame beyond its sub-code matters (R145). -/
def execEvtJam (_sequence : Byte) (_rest : List Byte) (s : State) : Answer := .next (perform jamEvent s)

/-- `EVT.PIN_UNLOCK`: `30 B0 ss LL 13 tt .. CK` (R146). -/
def execEvtPinUnlock (sequence : Byte) (rest : List Byte) (s : State) : Answer :=
  .next (perform (pinUnlockEvent (eventFrame sequence Config.subPinUnlock rest)) s)

/-- `EVT.MANUAL_LOCK`: `30 B0 ss LL 15 .. CK` (R147). -/
def execEvtManualLock (_sequence : Byte) (_rest : List Byte) (s : State) : Answer :=
  .next (perform manualLockEvent s)

/-- `EVT.MODULE_LOCK`: `30 B0 ss LL 18 .. CK` (R148). -/
def execEvtModuleLock (_sequence : Byte) (_rest : List Byte) (s : State) : Answer :=
  .next (perform moduleLockEvent s)

/-- `EVT.MODULE_UNLOCK`: `30 B0 ss LL 19 .. CK` (R149). -/
def execEvtModuleUnlock (_sequence : Byte) (_rest : List Byte) (s : State) : Answer :=
  .next (perform moduleUnlockEvent s)

/-- `EVT.TIMEOUT_RELOCK`: `30 B0 ss LL 1B .. CK` (R150). -/
def execEvtTimeoutRelock (_sequence : Byte) (_rest : List Byte) (s : State) : Answer :=
  .next (perform timeoutRelockEvent s)

/-- `EVT.NFC_UNLOCK`: `30 B0 ss LL 90 tt .. CK` (R151). -/
def execEvtNfcUnlock (sequence : Byte) (rest : List Byte) (s : State) : Answer :=
  .next (perform (nfcUnlockEvent (eventFrame sequence Config.subNfcUnlock rest)) s)

/-- `EVT.LOW_BATTERY`: `30 B0 ss LL A7 .. CK` (R152). -/
def execEvtLowBattery (_sequence : Byte) (_rest : List Byte) (s : State) : Answer :=
  .next (perform lowBatteryEvent s)

/-- `EVT.UNKNOWN`: a lock event with any other sub-code, or none (R153). -/
def execEvtUnknown (sequence : Byte) (payload : List Byte) (s : State) : Answer :=
  .next (perform (unknownEvent ⟨Config.cmdEvent, Config.srcPeriph, sequence, payload⟩) s)

/-- `SETTING.CHG`: `33 B0 ss LL .. CK` (R154). -/
def execSettingChg (sequence : Byte) (payload : List Byte) (s : State) : Answer :=
  .next (perform (settingChanged ⟨Config.cmdSetting, Config.srcPeriph, sequence, payload⟩) s)

/-- `CONFIG.ENTER`: `37 B0 ss LL .. CK` (R155). -/
def execConfigEnter (_sequence : Byte) (_payload : List Byte) (s : State) : Answer := .next (perform configEntered s)

/-- `DISCOVERY.REQ`: `44 B0 ss LL .. CK` (R156). -/
def execDiscoveryReq (sequence : Byte) (payload : List Byte) (s : State) : Answer :=
  .next (perform (discoveryRequested ⟨Config.cmdDiscovery, Config.srcPeriph, sequence, payload⟩) s)

/-- `CMD.UNKNOWN`: `cc B0 ss LL .. CK` (R157). -/
def execCmdUnknown (command sequence : Byte) (payload : List Byte) (s : State) : Answer :=
  .next (perform (unknownCommand ⟨command, Config.srcPeriph, sequence, payload⟩) s)

end Sys2Proof.Machine
end

