-- ==== Sys2Proof/Machine/Encoder.lean ====
section
/-! DEFINITION. The packet encoder: BUILD and TRANSMIT as operations, the frames the block sends, and the lock
request (spec/44_encode_transmit.md). -/

namespace Sys2Proof.Machine

/-- `STATUS.REQ`: `BUILD(0x11, 0xA0, 0x00, [])` (R176). -/
def statusRequestFrame : OutFrame := ⟨Config.cmdStatus, Config.srcCtrl, 0x00, [], by decide⟩

/-- `LOCK.CMD`: `BUILD(0x10, 0xA0, 0x00, [tt])` (R177). -/
def lockCommandFrame (target : LockTarget) : OutFrame :=
  ⟨Config.cmdLock, Config.srcCtrl, 0x00, [targetByte target], by simp⟩

/-- `SETTING.ACK`: `BUILD(0x33, 0xA1, ss, [])` (R174). -/
def settingAckFrame (sequence : Byte) : OutFrame :=
  ⟨Config.cmdSetting, Config.srcCtrlReply, sequence, [], by decide⟩

/-- `DISCOVERY.RPL`: `BUILD(0x44, 0xA1, ss, [0x00])` (R175). -/
def discoveryReplyFrame (sequence : Byte) : OutFrame :=
  ⟨Config.cmdDiscovery, Config.srcCtrlReply, sequence, [0x00], by decide⟩

/-- `BUILD(command, source, sequence, payload)`: the frame's bytes are given back. A payload that cannot be
encoded is outside its domain and refused (R170, R171; D20, entry 19). -/
def execBuild (command source sequence : Byte) (payload : List Byte) (s : State) : Answer :=
  if fits : payload.length ≤ Config.payloadMax then
    .next (giveBack (.built (frameBytes ⟨command, source, sequence, payload⟩))
      (build ⟨command, source, sequence, payload, fits⟩ s))
  else .refused .payloadTooLong

/-- `TRANSMIT()` (R172). -/
def execTransmit (s : State) : Answer := .next (transmit s)

/-- `LOCKREQ(target)`: not gated by `discovered`, and it touches neither the assembler nor the poll timer (R177;
D19, entry 18). -/
def execLockReq (target : LockTarget) (s : State) : Answer := .next (send (lockCommandFrame target) s)

/-- The frame `LOCK.CMD` lock is built and sent (R177). -/
def execLockCmdLock (s : State) : Answer := .next (send (lockCommandFrame .lock) s)

/-- The frame `LOCK.CMD` unlock is built and sent (R177). -/
def execLockCmdUnlock (s : State) : Answer := .next (send (lockCommandFrame .unlock) s)

/-- The frame `STATUS.REQ` is built and sent (R176). -/
def execStatusReq (s : State) : Answer := .next (send statusRequestFrame s)

/-- The frame `SETTING.ACK` is built and sent (R174). -/
def execSettingAck (sequence : Byte) (s : State) : Answer := .next (send (settingAckFrame sequence) s)

/-- The frame `DISCOVERY.RPL` is built and sent (R175). -/
def execDiscoveryRpl (sequence : Byte) (s : State) : Answer := .next (send (discoveryReplyFrame sequence) s)

end Sys2Proof.Machine
end

