-- ==== Sys2Proof/Machine/Scheduler.lean ====
section
/-! DEFINITION. The link scheduler: SCHED.POLL and the TICK step that sequences everything
(spec/45_scheduler_tick.md). -/

namespace Sys2Proof.Machine

/-- `SCHED.POLL(now)`: when a status request is due it is sent and the timer restarts at `now`; else nothing
(R192). -/
def schedPoll (now : Time) (s : State) : State :=
  if pollDue now s then { send statusRequestFrame s with lastPoll := now, pollForce := false } else s

/-- Phase 2 of TICK: the raw frame POLL delivers, if any, is dispatched (R190, R191). -/
def pollAndDispatch (now : Time) (s : State) : State :=
  match poll now s with
  | (some f, t) => dispatch f t
  | (none, t) => t

/-- `TICK(now, rx_bytes)`: drain the byte source, test the RX idle timer, test the poll timer, in that order
(R190, R224; D3, D4, entry 17). -/
def tick (now : Time) (rxBytes : List Byte) (s : State) : State :=
  schedPoll now (pollAndDispatch now (feedAll now rxBytes s))

/-- `SCHED.POLL(now)` as an instruction (R192). -/
def execSchedPoll (now : Time) (s : State) : Answer := .next (schedPoll now s)

/-- `TICK(now, rx_bytes)` as an instruction (R190). -/
def execTick (now : Time) (rxBytes : List Byte) (s : State) : Answer := .next (tick now rxBytes s)

end Sys2Proof.Machine
end

