-- ==== Sys2Proof/Machine/Validation.lean ====
section
/-! DEFINITION. VALIDATE and DECODE as operations (spec/42_frame_validate.md). They touch no state of the block;
their value is given back. -/

namespace Sys2Proof.Machine

/-- `VALIDATE(f)` (R121 to R125), total for any length. -/
def execValidate (f : List Byte) (s : State) : Answer := .next (giveBack (.verdict (validateFrame f)) s)

/-- `DECODE(f)` (R120). On a sequence too short for an index it reads, the byte read is a free value
(entry 21). -/
def execDecode (f : List Byte) (s : State) : Answer := .next (giveBack (.decoded (decodeFields f)) s)

end Sys2Proof.Machine
end

