-- ==== Sys2Proof/Machine/Dispatch.lean ====
section
/-! DEFINITION. One arm per row of spec/opcode_table.json, each a direct call of that row's meaning. -/

namespace Sys2Proof.Machine

def exec (i : Instr) (s : State) : Host.Outcome State Fault Refusal :=
  match i with
  | .statusRpt alt sequence payload => Sys2Proof.Machine.execStatusRpt alt sequence payload s
  | .evtJam sequence rest => Sys2Proof.Machine.execEvtJam sequence rest s
  | .evtPinUnlock sequence rest => Sys2Proof.Machine.execEvtPinUnlock sequence rest s
  | .evtManualLock sequence rest => Sys2Proof.Machine.execEvtManualLock sequence rest s
  | .evtModuleLock sequence rest => Sys2Proof.Machine.execEvtModuleLock sequence rest s
  | .evtModuleUnlock sequence rest => Sys2Proof.Machine.execEvtModuleUnlock sequence rest s
  | .evtTimeoutRelock sequence rest => Sys2Proof.Machine.execEvtTimeoutRelock sequence rest s
  | .evtNfcUnlock sequence rest => Sys2Proof.Machine.execEvtNfcUnlock sequence rest s
  | .evtLowBattery sequence rest => Sys2Proof.Machine.execEvtLowBattery sequence rest s
  | .evtUnknown sequence payload => Sys2Proof.Machine.execEvtUnknown sequence payload s
  | .settingChg sequence payload => Sys2Proof.Machine.execSettingChg sequence payload s
  | .configEnter sequence payload => Sys2Proof.Machine.execConfigEnter sequence payload s
  | .discoveryReq sequence payload => Sys2Proof.Machine.execDiscoveryReq sequence payload s
  | .cmdUnknown command sequence payload => Sys2Proof.Machine.execCmdUnknown command sequence payload s
  | .lockCmdLock => Sys2Proof.Machine.execLockCmdLock s
  | .lockCmdUnlock => Sys2Proof.Machine.execLockCmdUnlock s
  | .statusReq => Sys2Proof.Machine.execStatusReq s
  | .settingAck sequence => Sys2Proof.Machine.execSettingAck sequence s
  | .discoveryRpl sequence => Sys2Proof.Machine.execDiscoveryRpl sequence s
  | .reset => Sys2Proof.Machine.execReset s
  | .tick now rxBytes => Sys2Proof.Machine.execTick now rxBytes s
  | .lockReq target => Sys2Proof.Machine.execLockReq target s
  | .feed b now => Sys2Proof.Machine.execFeed b now s
  | .poll now => Sys2Proof.Machine.execPoll now s
  | .xsumCompute bytes => Sys2Proof.Machine.execXsumCompute bytes s
  | .xsumVerify frame => Sys2Proof.Machine.execXsumVerify frame s
  | .validate f => Sys2Proof.Machine.execValidate f s
  | .decode f => Sys2Proof.Machine.execDecode f s
  | .dispatch f => Sys2Proof.Machine.execDispatch f s
  | .build command source sequence payload => Sys2Proof.Machine.execBuild command source sequence payload s
  | .transmit => Sys2Proof.Machine.execTransmit s
  | .schedPoll now => Sys2Proof.Machine.execSchedPoll now s

end Sys2Proof.Machine
end

