-- ==== Sys2Proof/Machine/Fetch.lean ====
section
/-! DEFINITION. How a pending line becomes the instruction to run (spec/30_encoding.md R68, R72). The block
itself fetches nothing (spec/10_state.md R14); a step takes the oldest of the environment's lines. -/

namespace Sys2Proof.Machine

/-- The instruction a line stands for. A named line is the instruction it names. A literal is decoded; bytes that
are no frame of the table are handed to DISPATCH, which drops them with the diagnostic of the check they fail
(R68; entry 30). -/
def Line.instr : Line → Instr
  | .named i => i
  | .literal raw =>
    match decodeFrame raw with
    | .ok i => i
    | .error _ => .dispatch raw

/-- The oldest pending line is taken from the queue (R49: each input is presented to the block exactly once,
R46). -/
def takeLine (rest : List Line) (s : State) : State := { s with pending := rest }

end Sys2Proof.Machine
end

