-- ==== Sys2Proof/Machine/Step.lean ====
section
/-! DEFINITION. One step of the machine: the oldest pending line is taken and run (spec/10_state.md R24,
spec/20_memory.md R49). -/

namespace Sys2Proof.Machine

/-- A step. With nothing pending the block waits for the environment and nothing changes (R50, R231, R244;
entry 4). -/
def step (s : State) : Host.Outcome State Fault Refusal :=
  match s.pending with
  | [] => .next s
  | line :: rest => exec line.instr (takeLine rest s)

/-- The frame that a table word stands for, put in front of the pending lines, so that the next step decodes and
runs it (entries 1, 5). -/
def State.withFetchWord (s : State) (nbits w : Nat) : State :=
  { s with pending := .literal (tableFrame (w % 2 ^ nbits)) :: s.pending }

end Sys2Proof.Machine
end

