-- ==== Sys2Proof/Safety.lean ====
section
/-! DEFINITION. What counts as a safe state and as an environment that keeps its premises, in the terms the
statements use (spec/10_state.md R28, spec/44_encode_transmit.md R178, spec/70_reset_and_hazards.md R250, R252). -/

namespace Sys2Proof.Safety

open Sys2Proof.Machine

/-- The three steps the environment drives the block by (R24); everything else is internal to one of them. -/
def isExternal : Line → Bool
  | .named .reset => true
  | .named (.tick _ _) => true
  | .named (.lockReq _) => true
  | _ => false

/-- The environment asks for steps of the step alphabet only. -/
def externalOnly (s : State) : Bool := s.pending.all isExternal

/-- Both buffers are in canonical form and hold nothing outside their 40 indices (R21, R44). -/
def buffersOk (s : State) : Bool :=
  s.rxBuf.wf && s.rxBuf.within Config.rxCap && s.txBuf.wf && s.txBuf.within Config.txCap

/-- The outgoing frame register holds nothing, or one frame whose length byte and checksum are right (R28). -/
def txFrameOk (s : State) : Bool :=
  decide (s.txLen.val = 0) ||
    (decide (Config.overhead ≤ s.txLen.val) &&
      decide ((s.txBuf.read 3).toNat = s.txLen.val - Config.overhead) &&
      decide (s.txBuf.read (s.txLen.val - 1) = xsum (s.txBuf.readBytes 0 (s.txLen.val - 1))))

/-- The invariant of step boundaries (R28), with the buffers' canonical form; the bounds of `rx_len` and `tx_len`
are in their types. -/
def boundaryOk (s : State) : Bool := buffersOk s && txFrameOk s && !s.pollForce

/-- The frames the block sends, and no others (R66, R178). -/
def Sendable (bytes : List Byte) : Prop :=
  bytes = [0x10, 0xA0, 0x00, 0x01, 0xFF, 0x4E] ∨ bytes = [0x10, 0xA0, 0x00, 0x01, 0x00, 0xB1] ∨
    bytes = [0x11, 0xA0, 0x00, 0x00, 0xB1] ∨
    (∃ ss : Byte, bytes = [0x33, 0xA1, ss, 0x00, 0x92 ^^^ ss]) ∨
    ∃ ss : Byte, bytes = [0x44, 0xA1, ss, 0x01, 0x00, 0xE4 ^^^ ss]

/-- The output goes to the link: the wake line or the byte sink. -/
def onLink : Output → Bool
  | .wake _ => true
  | .txByte _ => true
  | .event _ => false
  | .diag _ => false

/-- The times of the TICKs among the pending lines, in order. -/
def tickTimes : List Line → List Time
  | [] => []
  | .named (.tick now _) :: rest => now :: tickTimes rest
  | _ :: rest => tickTimes rest

/-- Premise R252: `now` never decreases from one TICK to the next. -/
def clockMonotone (times : List Time) : Prop := times.Pairwise (fun a b => a.toNat ≤ b.toNat)

/-- Premise R250: successive TICKs are less than `T_FRAME` of `now` apart (TICK_MAX, R6). -/
def ticksClose (times : List Time) : Prop := times.IsChain (fun a b => elapsed b a < Config.tFrame)

/-- `t` is `s` after the frame `bytes` was built and sent: `tx_buf` holds it from index 0, `tx_len` its length, the
wake pulse and its bytes have gone out, and nothing else has changed (R170, R172). -/
def Sent (bytes : List Byte) (s t : State) : Prop :=
  (∀ k, t.txBuf.read k = bytes.getD k (s.txBuf.read k)) ∧
    t.txLen.val = bytes.length ∧
    t.trace = s.trace ++ ([.wake .asserted, .wake .deasserted] ++ bytes.map .txByte) ∧
    { t with txBuf := s.txBuf, txLen := s.txLen, trace := s.trace } = s

/-! ### Which operation may write which piece of state (R13); an operation not named writes none of it -/

/-- `rx_buf` and `last_byte_time`. -/
def writesBuffer : Instr → Bool
  | .reset => true
  | .feed _ _ => true
  | .tick _ _ => true
  | _ => false

/-- `rx_len`. -/
def writesLength : Instr → Bool
  | .poll _ => true
  | i => writesBuffer i

/-- `last_poll`. -/
def writesLastPoll : Instr → Bool
  | .reset => true
  | .schedPoll _ => true
  | .tick _ _ => true
  | _ => false

/-- `poll_force`. -/
def writesPollForce : Instr → Bool
  | .dispatch _ => true
  | .discoveryReq _ _ => true
  | i => writesLastPoll i

/-- `tx_buf` and `tx_len`, directly or through BUILD. -/
def writesOutgoing : Instr → Bool
  | .reset => true
  | .build _ _ _ _ => true
  | .dispatch _ => true
  | .settingChg _ _ => true
  | .discoveryReq _ _ => true
  | .schedPoll _ => true
  | .lockReq _ => true
  | .tick _ _ => true
  | i => i.isTx

/-- The operations that return a value to their caller (entry 3). -/
def returnsValue : Instr → Bool
  | .xsumCompute _ => true
  | .xsumVerify _ => true
  | .validate _ => true
  | .decode _ => true
  | .poll _ => true
  | .build _ _ _ _ => true
  | _ => false

/-- A run is safe when it neither faults nor is refused: it answers a next state (R8). -/
def answersNext (s : State) : Prop := ∃ t, step s = .next t

end Sys2Proof.Safety
end

