-- ==== Sys2Proof/Certificates/Slice0/Obligations.lean ====
section
/-! DEFINITION. The statements for the provers, one for each entry of OBLIGATIONS.json. -/

open Sys2Proof Sys2Proof.Machine Sys2Proof.Safety

/-! ### Encoding and stepping -/

/-- Decode after encode is the identity on well-formed frames, every operand at every value (R60, R61, R71). -/
def Obligations.DecodeInvertsEncode : Prop :=
  ∀ i : Instr, i.wellFormed = true → (i.isRx || i.isTx) = true → decodeFrame (encode i) = .ok i

/-- Encode after decode is the identity on bytes that decode, and what they decode to is well-formed (R61, R71). -/
def Obligations.EncodeInvertsDecode : Prop :=
  ∀ (raw : List Byte) (i : Instr), decodeFrame raw = .ok i → i.wellFormed = true ∧ encode i = raw

/-- The five-byte prefix of an encoding agrees with the match and mask of the instruction's row (R71). -/
def Obligations.EncodingMatchesTableRow : Prop :=
  ∀ (i : Instr) (value mask : BitVec 40), i.wellFormed = true → i.tableRow = some (value, mask) →
    tablePrefix (encode i) &&& mask = value

/-- Words written out from R65 and R66 decode to the instructions they stand for. -/
def Obligations.WrittenWordsDecode : Prop :=
  decodeFrame [0x11, 0xB1, 0x03, 0x01, 0x00, 0xA2] = .ok (.statusRpt true 0x03 [0x00]) ∧
    decodeFrame [0x30, 0xB0, 0x00, 0x02, 0x13, 0x05, 0x94] = .ok (.evtPinUnlock 0x00 [0x05]) ∧
    decodeFrame [0x44, 0xB0, 0x07, 0x00, 0xF3] = .ok (.discoveryReq 0x07 []) ∧
    decodeFrame [0x33, 0xA1, 0x2A, 0x00, 0xB8] = .ok (.settingAck 0x2A) ∧
    decodeFrame [0x11, 0xA0, 0x00, 0x00, 0x11] = .error (.check .checksumMismatch)

/-- A step runs the instruction that the oldest pending line stands for, on the state without that line; with
nothing pending nothing changes (the model's choice, entries 1, 4). -/
def Obligations.StepRunsThePendingLine : Prop :=
  (∀ s : State, s.pending = [] → step s = .next s) ∧
    (∀ (s : State) (i : Instr) (rest : List Line), s.pending = .named i :: rest →
      step s = exec i { s with pending := rest }) ∧
    (∀ (s : State) (raw : List Byte) (i : Instr) (rest : List Line), s.pending = .literal raw :: rest →
      decodeFrame raw = .ok i → step s = exec i { s with pending := rest }) ∧
    ∀ (s : State) (nbits w : Nat) (i : Instr), decodeTableWord nbits w = some i →
      step (s.withFetchWord nbits w) = exec i s

/-- Bytes that are no frame of the table are dropped with exactly one diagnostic, whose code is that of the check
they fail (R68; the code numbers are D16, entry 15; that a literal line is dispatched is the model's choice, entry 30). -/
def Obligations.UndecodableBytesAreDropped : Prop :=
  ∀ (s : State) (raw : List Byte) (rest : List Line) (code : CheckError), s.pending = .literal raw :: rest →
    decodeFrame raw = .error (.check code) →
    ∃ d : Diag, step s = .next { s with pending := rest, trace := s.trace ++ [.diag d] } ∧
      d.code = match code with
        | .frameTooShort => 2
        | .checksumMismatch => 3
        | .sizeMismatch => 4
        | .ignoredSource => 5

/-- No step faults, and none is refused but a BUILD whose payload cannot be encoded (R8, R232; D20, entry 19). -/
def Obligations.EveryStepButOverlongBuildAnswersNext : Prop :=
  ∀ s : State, (∃ t, step s = .next t) ∨
    ∃ (command source sequence : Byte) (payload : List Byte) (rest : List Line),
      s.pending = .named (.build command source sequence payload) :: rest ∧ 35 < payload.length ∧
        step s = .refused .payloadTooLong

/-! ### The checksum codec -/

/-- XSUM.COMPUTE returns the byte whose bit `k` is the parity of bit `k` of all the bytes, and changes nothing else
(R90, R92; the empty sequence is D21, entry 20). -/
def Obligations.XsumComputeIsBitwiseParity : Prop :=
  ∀ (bytes : List Byte) (s : State), ∃ c : Byte,
    exec (.xsumCompute bytes) s = .next { s with returned := .checksum c } ∧
      ∀ k, k < 8 → c.getLsbD k = decide ((bytes.countP fun b => b.getLsbD k) % 2 = 1)

/-- XSUM.VERIFY compares the XOR of all but the last byte with the last, which for a non-empty sequence is to say
that the XOR of the whole is 0x00; of the empty sequence it is false (R91; D21, entry 20). -/
def Obligations.XsumVerifyMeansWholeXorIsZero : Prop :=
  ∀ (s : State),
    exec (.xsumVerify []) s = .next { s with returned := .verified false } ∧
      ∀ (body : List Byte) (trailer : Byte),
        exec (.xsumVerify (body ++ [trailer])) s =
          .next { s with returned := .verified (decide (xsum body = trailer)) } ∧
        exec (.xsumVerify (body ++ [trailer])) s =
          .next { s with returned := .verified (decide (xsum (body ++ [trailer]) = 0x00)) }

/-! ### Validation and decoding of fields -/

/-- VALIDATE makes four checks in order and returns the first error (R122 to R125). -/
def Obligations.ValidateMakesFourChecksInOrder : Prop :=
  ∀ (f : List Byte) (s : State),
    exec (.validate f) s = .next { s with returned := .verdict (
      if f.length < 5 then .error .frameTooShort
      else if xsum (f.take (f.length - 1)) ≠ f.getD (f.length - 1) 0 then .error .checksumMismatch
      else if f.length ≠ (f.getD 3 0).toNat + 5 then .error .sizeMismatch
      else if f.getD 1 0 = 0xB0 ∨ (f.getD 1 0 = 0xB1 ∧ f.getD 0 0 = 0x11) then .ok
      else .error .ignoredSource) }

/-- DECODE of a sequence as long as it declares returns its four fields, the payload being `f[4 .. 3+L]` (R120). -/
def Obligations.DecodeTakesTheFields : Prop :=
  ∀ (f : List Byte) (s : State), f.length = (f.getD 3 0).toNat + 5 →
    exec (.decode f) s = .next { s with
      returned := .decoded ⟨f.getD 0 0, f.getD 1 0, f.getD 2 0, (f.drop 4).take (f.length - 5)⟩ }

/-- DECODE of any sequence completes, and every byte that is there stands in its field (the model's choice outside
DECODE's domain, entry 21). -/
def Obligations.DecodeOfAnyBytesCompletes : Prop :=
  ∀ (f : List Byte) (s : State), ∃ fr : Frame,
    exec (.decode f) s = .next { s with returned := .decoded fr } ∧
      (∀ b, f[0]? = some b → fr.command = b) ∧ (∀ b, f[1]? = some b → fr.source = b) ∧
      (∀ b, f[2]? = some b → fr.sequence = b) ∧
      ∀ len, f[3]? = some len → fr.payload.length = len.toNat ∧
        ∀ (k : Nat) (b : Byte), k < len.toNat → f[4 + k]? = some b → fr.payload[k]? = some b

/-- DECODE of what BUILD returns gives the four fields back (R120, R126). -/
def Obligations.DecodeInvertsBuild : Prop :=
  ∀ (command source sequence : Byte) (payload : List Byte) (s : State), payload.length ≤ 35 →
    ∃ (t : State) (bytes : List Byte), exec (.build command source sequence payload) s = .next t ∧
      t.returned = .built bytes ∧
      exec (.decode bytes) t = .next { t with returned := .decoded ⟨command, source, sequence, payload⟩ }

/-- What BUILD returns passes VALIDATE or fails it on the source filter alone (R126). -/
def Obligations.BuiltFramesAreValidButForTheSource : Prop :=
  ∀ (command source sequence : Byte) (payload : List Byte) (s : State), payload.length ≤ 35 →
    ∃ (t : State) (bytes : List Byte), exec (.build command source sequence payload) s = .next t ∧
      t.returned = .built bytes ∧
      exec (.validate bytes) t = .next { t with returned := .verdict (
        if source = 0xB0 ∨ (source = 0xB1 ∧ command = 0x11) then .ok else .error .ignoredSource) }

/-! ### The encoder -/

/-- BUILD stores header, payload and the XOR of both in `tx_buf` from index 0, their number in `tx_len`, returns
the bytes, and changes nothing else (R170). -/
def Obligations.BuildStoresTheFrame : Prop :=
  ∀ (command source sequence : Byte) (payload : List Byte) (s : State), payload.length ≤ 35 →
    ∃ (t : State) (body bytes : List Byte), exec (.build command source sequence payload) s = .next t ∧
      body = [command, source, sequence, BitVec.ofNat 8 payload.length] ++ payload ∧
      bytes = body ++ [xsum body] ∧ t.returned = .built bytes ∧ t.txLen.val = 5 + payload.length ∧
      (∀ k, t.txBuf.read k = bytes.getD k (s.txBuf.read k)) ∧
      { t with txBuf := s.txBuf, txLen := s.txLen, returned := s.returned } = s

/-- BUILD of a payload that cannot be encoded is refused (R171; D20, entry 19). -/
def Obligations.BuildRefusesOverlongPayload : Prop :=
  ∀ (command source sequence : Byte) (payload : List Byte) (s : State), 35 < payload.length →
    exec (.build command source sequence payload) s = .refused .payloadTooLong

/-- TRANSMIT pulses the wake line and sends `tx_buf[0 .. tx_len-1]` in index order; no state changes (R172). -/
def Obligations.TransmitSendsTheHeldFrame : Prop :=
  ∀ s : State, exec .transmit s = .next { s with trace := s.trace ++ ([.wake .asserted, .wake .deasserted] ++
    (List.range s.txLen.val).map fun k => .txByte (s.txBuf.read k)) }

/-- TRANSMIT right after BUILD sends exactly the bytes BUILD returned (R12, R170, R172). -/
def Obligations.TransmitAfterBuildSendsTheBuiltBytes : Prop :=
  ∀ (command source sequence : Byte) (payload : List Byte) (s : State), payload.length ≤ 35 →
    ∃ (t : State) (bytes : List Byte), exec (.build command source sequence payload) s = .next t ∧
      t.returned = .built bytes ∧ exec .transmit t = .next { t with trace := t.trace ++
        ([.wake .asserted, .wake .deasserted] ++ bytes.map .txByte) }

/-- Each frame the block sends goes out with the bytes R66 lists for it, behind its wake pulse, and stays in
`tx_buf`; nothing else changes (R66, R174 to R177; that they can be issued alone is entry 28). -/
def Obligations.SentFramesHaveTheListedBytes : Prop :=
  ∀ (sequence : Byte) (s : State),
    (∃ t, exec .lockCmdLock s = .next t ∧ Sent [0x10, 0xA0, 0x00, 0x01, 0xFF, 0x4E] s t) ∧
    (∃ t, exec .lockCmdUnlock s = .next t ∧ Sent [0x10, 0xA0, 0x00, 0x01, 0x00, 0xB1] s t) ∧
    (∃ t, exec .statusReq s = .next t ∧ Sent [0x11, 0xA0, 0x00, 0x00, 0xB1] s t) ∧
    (∃ t, exec (.settingAck sequence) s = .next t ∧ Sent [0x33, 0xA1, sequence, 0x00, 0x92 ^^^ sequence] s t) ∧
    ∃ t, exec (.discoveryRpl sequence) s = .next t ∧
      Sent [0x44, 0xA1, sequence, 0x01, 0x00, 0xE4 ^^^ sequence] s t

/-- LOCKREQ sends the lock command in every state, discovered or not, and changes nothing else (R177; that it is
ungated is D19, entry 18). -/
def Obligations.LockRequestSendsTheLockCommand : Prop :=
  ∀ s : State,
    (∃ t, exec (.lockReq .lock) s = .next t ∧ Sent [0x10, 0xA0, 0x00, 0x01, 0xFF, 0x4E] s t) ∧
    ∃ t, exec (.lockReq .unlock) s = .next t ∧ Sent [0x10, 0xA0, 0x00, 0x01, 0x00, 0xB1] s t

/-- A frame the block itself sends, heard as an echo, is dropped with IgnoredSource (R158, R256; the
diagnostic's info, source and then command, is D16, entry 15). -/
def Obligations.EchoOfASentFrameIsIgnored : Prop :=
  ∀ (bytes : List Byte) (s : State), Sendable bytes →
    exec (.dispatch bytes) s = .next { s with
      trace := s.trace ++ [.diag (.ignoredSource (bytes.getD 1 0) (bytes.getD 0 0))] }

/-! ### The received frames -/

/-- STATUS.RPT marks the peripheral discovered and reports locked for 0xFF, unlocked for 0x00, nothing for any
other byte or none, from either source (R144; the last clause is D12, entry 12; 0xB1 is D30, entry 24). -/
def Obligations.StatusReportTellsTheLockState : Prop :=
  ∀ (alt : Bool) (sequence : Byte) (rest : List Byte) (s : State),
    exec (.statusRpt alt sequence (0xFF :: rest)) s =
      .next { s with discovered := true, trace := s.trace ++ [.event (.statusChanged true)] } ∧
    exec (.statusRpt alt sequence (0x00 :: rest)) s =
      .next { s with discovered := true, trace := s.trace ++ [.event (.statusChanged false)] } ∧
    exec (.statusRpt alt sequence []) s = .next { s with discovered := true } ∧
    ∀ b : Byte, b ≠ 0xFF → b ≠ 0x00 →
      exec (.statusRpt alt sequence (b :: rest)) s = .next { s with discovered := true }

/-- The five lock events that carry no slot each emit their one event and mark the peripheral discovered (R145,
R147 to R150; the sources and lock states are D11, entry 11). -/
def Obligations.LockEventsWithoutSlot : Prop :=
  ∀ (sequence : Byte) (rest : List Byte) (s : State),
    exec (.evtJam sequence rest) s = .next { s with
      discovered := true, trace := s.trace ++ [.event (.lockActuated .jam none none)] } ∧
    exec (.evtManualLock sequence rest) s = .next { s with
      discovered := true, trace := s.trace ++ [.event (.lockActuated .user none (some true))] } ∧
    exec (.evtModuleLock sequence rest) s = .next { s with
      discovered := true, trace := s.trace ++ [.event (.lockActuated .selfModule none (some true))] } ∧
    exec (.evtModuleUnlock sequence rest) s = .next { s with
      discovered := true, trace := s.trace ++ [.event (.lockActuated .selfModule none (some false))] } ∧
    exec (.evtTimeoutRelock sequence rest) s = .next { s with
      discovered := true, trace := s.trace ++ [.event (.lockActuated .timeout none (some true))] }

/-- EVT.LOW_BATTERY is encoded `30 B0 ss LL A7 .. CK` with `LL >= 1`; it emits LowBattery and nothing else,
whatever follows its sub-code (R152). -/
def Obligations.LowBatteryEmitsItsOwnEvent : Prop :=
  ∀ (sequence : Byte) (rest : List Byte) (s : State),
    encode (.evtLowBattery sequence rest) =
        [0x30, 0xB0, sequence, BitVec.ofNat 8 (1 + rest.length), 0xA7] ++ rest ++
          [xsum ([0x30, 0xB0, sequence, BitVec.ofNat 8 (1 + rest.length), 0xA7] ++ rest)] ∧
      exec (.evtLowBattery sequence rest) s =
        .next { s with discovered := true, trace := s.trace ++ [.event .lowBattery] }

/-- A PIN or NFC unlock carries the slot byte that follows its sub-code, or none when there is none (R146, R151;
D11, D14, entries 11, 13). -/
def Obligations.CredentialUnlocksCarryTheSlot : Prop :=
  ∀ (sequence slotByte : Byte) (rest : List Byte) (s : State),
    exec (.evtPinUnlock sequence (slotByte :: rest)) s = .next { s with
      discovered := true, trace := s.trace ++ [.event (.lockActuated .pin (some slotByte) (some false))] } ∧
    exec (.evtPinUnlock sequence []) s = .next { s with
      discovered := true, trace := s.trace ++ [.event (.lockActuated .pin none (some false))] } ∧
    exec (.evtNfcUnlock sequence (slotByte :: rest)) s = .next { s with
      discovered := true, trace := s.trace ++ [.event (.lockActuated .nfc (some slotByte) (some false))] } ∧
    exec (.evtNfcUnlock sequence []) s = .next { s with
      discovered := true, trace := s.trace ++ [.event (.lockActuated .nfc none (some false))] }

/-- EVT.UNKNOWN emits the UnknownSubcode diagnostic and then the UnknownCommand event (R153; D13, D15, entries 13,
14). It covers the terms that no bytes decode to as well, a known sub-code or a payload above 35 bytes, whose
running by this rule is the model's choice (entry 38). -/
def Obligations.UnknownSubcodeIsReported : Prop :=
  ∀ (sequence : Byte) (payload : List Byte) (s : State),
    exec (.evtUnknown sequence payload) s = .next { s with
      discovered := true
      trace := s.trace ++ [.diag (.unknownSubcode payload.head?),
        .event (.unknownCommand 0x30 sequence (BitVec.ofNat 8 payload.length))] }

/-- SETTING.CHG emits SettingChanged and then sends the acknowledgement `33 A1 ss 00 CK`, whatever its payload
(R154, R174; the order is D17, entry 16). -/
def Obligations.SettingChangeIsAcknowledged : Prop :=
  ∀ (sequence : Byte) (payload : List Byte) (s : State), ∃ t,
    exec (.settingChg sequence payload) s = .next t ∧
      Sent [0x33, 0xA1, sequence, 0x00, 0x92 ^^^ sequence]
        { s with discovered := true, trace := s.trace ++ [.event .settingChanged] } t

/-- CONFIG.ENTER is encoded `37 B0 ss LL .. CK`; it emits its notice and no event, and sends no reply (R155). -/
def Obligations.ConfigEnterOnlyNotifies : Prop :=
  ∀ (sequence : Byte) (payload : List Byte) (s : State),
    encode (.configEnter sequence payload) =
        [0x37, 0xB0, sequence, BitVec.ofNat 8 payload.length] ++ payload ++
          [xsum ([0x37, 0xB0, sequence, BitVec.ofNat 8 payload.length] ++ payload)] ∧
      exec (.configEnter sequence payload) s =
        .next { s with discovered := true, trace := s.trace ++ [.diag .configEnterNotice] }

/-- DISCOVERY.REQ emits DiscoveryRequest, sends the reply `44 A1 ss 01 00 CK` and forces the next poll, whatever
its payload and the state (R156, R175; the order is D17 and the flag D6, entries 16, 25). -/
def Obligations.DiscoveryIsAnsweredAndForcesThePoll : Prop :=
  ∀ (sequence : Byte) (payload : List Byte) (s : State), ∃ t,
    exec (.discoveryReq sequence payload) s = .next t ∧
      Sent [0x44, 0xA1, sequence, 0x01, 0x00, 0xE4 ^^^ sequence]
        { s with discovered := true, pollForce := true, trace := s.trace ++ [.event .discoveryRequest] } t

/-- CMD.UNKNOWN emits the UnknownCommand diagnostic and then the event of the same name (R157; D15, entry 14).
It covers the terms that no bytes decode to as well, a command with a row of its own or a payload above 35 bytes,
whose running by this rule is the model's choice (entry 38). -/
def Obligations.UnknownCommandIsReported : Prop :=
  ∀ (command sequence : Byte) (payload : List Byte) (s : State),
    exec (.cmdUnknown command sequence payload) s = .next { s with
      discovered := true
      trace := s.trace ++ [.diag (.unknownCommand command sequence (BitVec.ofNat 8 payload.length)),
        .event (.unknownCommand command sequence (BitVec.ofNat 8 payload.length))] }

/-! ### The dispatcher -/

/-- DISPATCH of a frame the decoder reads as a received row does what that row's instruction does (R140, R142). -/
def Obligations.DispatchRunsTheDecodedFrame : Prop :=
  ∀ (f : List Byte) (i : Instr) (s : State), decodeFrame f = .ok i → i.isRx = true →
    exec (.dispatch f) s = exec i s

/-- A frame that fails validation is dropped: exactly one diagnostic and no other change, and the diagnostic's info
is what R210 tabulates (R216; the info's contents are D16, entry 15). -/
def Obligations.InvalidFrameIsDropped : Prop :=
  ∀ (f : List Byte) (s : State) (code : CheckError),
    exec (.validate f) s = .next { s with returned := .verdict (.error code) } →
    exec (.dispatch f) s = .next { s with trace := s.trace ++ [.diag (match code with
      | .frameTooShort => .frameTooShort f.length
      | .checksumMismatch => .checksumMismatch (xsum (f.take (f.length - 1))) (f.getD (f.length - 1) 0)
      | .sizeMismatch => .sizeMismatch f.length (f.getD 3 0)
      | .ignoredSource => .ignoredSource (f.getD 1 0) (f.getD 0 0))] }

/-- What DISPATCH emits and which flags it sets are functions of the frame's bytes alone; it never touches the
assembler or `last_poll` (R158, R13). -/
def Obligations.DispatchIsAFunctionOfTheFrame : Prop :=
  ∀ f : List Byte, ∃ (outs : List Output) (accepted force : Bool), ∀ s : State, ∃ t,
    exec (.dispatch f) s = .next t ∧ t.trace = s.trace ++ outs ∧ t.discovered = (s.discovered || accepted) ∧
      t.pollForce = (s.pollForce || force) ∧ t.rxBuf = s.rxBuf ∧ t.rxLen = s.rxLen ∧
      t.lastByteTime = s.lastByteTime ∧ t.lastPoll = s.lastPoll ∧ t.pending = s.pending ∧
      t.returned = s.returned

/-- Of all frames only a validated 0x33 or 0x44 puts anything on the link (R158). -/
def Obligations.OnlySettingAndDiscoveryAreAnswered : Prop :=
  ∀ (f : List Byte) (s : State), ∃ (t : State) (outs : List Output),
    exec (.dispatch f) s = .next t ∧ t.trace = s.trace ++ outs ∧
      (outs.any onLink = true ↔ validateFrame f = .ok ∧ (f.getD 0 0 = 0x33 ∨ f.getD 0 0 = 0x44))

/-- Changing any one byte of a frame with a right checksum makes it a dropped frame with ChecksumMismatch: no event,
no reply, `discovered` as it was (R92, R126; the diagnostic's info, the two checksums, is D16, entry 15). -/
def Obligations.AnyOneCorruptedByteIsCaught : Prop :=
  ∀ (f : List Byte) (k : Nat) (b : Byte) (s : State), 5 ≤ f.length → verifyXsum f = true → k < f.length →
    b ≠ f.getD k 0 → ∃ computed received : Byte, computed ≠ received ∧
      exec (.dispatch (f.set k b)) s =
        .next { s with trace := s.trace ++ [.diag (.checksumMismatch computed received)] }

/-- Two well-formed frames cut as one are dropped with SizeMismatch (R43; the diagnostic's info, the joint
length and the first frame's length byte, is D16, entry 15). -/
def Obligations.MergedFramesFailTheSizeCheck : Prop :=
  ∀ (a b : List Byte) (s : State), verifyXsum a = true → a.length = (a.getD 3 0).toNat + 5 →
    verifyXsum b = true → b.length = (b.getD 3 0).toNat + 5 →
    exec (.dispatch (a ++ b)) s = .next { s with
      trace := s.trace ++ [.diag (.sizeMismatch (a.length + b.length) (a.getD 3 0))] }

/-- A strict prefix of a well-formed frame is dropped, by one of the first three checks (R43; that their
codes are 2 to 4 is D16, entry 15). -/
def Obligations.StrictPrefixIsDropped : Prop :=
  ∀ (f : List Byte) (k : Nat) (s : State), f.length = (f.getD 3 0).toNat + 5 → k < f.length →
    ∃ d : Diag, exec (.dispatch (f.take k)) s = .next { s with trace := s.trace ++ [.diag d] } ∧
      2 ≤ d.code ∧ d.code ≤ 4

/-! ### The assembler -/

/-- FEED below capacity stores the byte at `rx_len`, advances `rx_len` by one, records the time, and changes nothing
else (R100; the time is the TICK's, D4, entry 17). -/
def Obligations.FeedStoresTheByte : Prop :=
  ∀ (b : Byte) (now : Time) (s : State), s.rxLen.val ≠ 39 → ∃ t,
    exec (.feed b now) s = .next t ∧ t.rxLen.val = s.rxLen.val + 1 ∧ t.lastByteTime = now ∧
      t.rxBuf.read s.rxLen.val = b ∧ (∀ a, a ≠ s.rxLen.val → t.rxBuf.read a = s.rxBuf.read a) ∧
      { t with rxBuf := s.rxBuf, rxLen := s.rxLen, lastByteTime := s.lastByteTime } = s

/-- The FEED that completes 40 bytes discards them all with one FrameOverflow, and the bytes that follow in the same
TICK go into the emptied buffer (R101, R211; D8, entry 7). -/
def Obligations.FortiethByteOverflows : Prop :=
  ∀ (b : Byte) (now : Time) (s : State), s.rxLen.val = 39 → ∃ t,
    exec (.feed b now) s = .next t ∧ t.rxLen.val = 0 ∧ t.lastByteTime = now ∧
      t.trace = s.trace ++ [.diag (.frameOverflow 40)] ∧ t.rxBuf.read 39 = b ∧
      (∀ a, a ≠ 39 → t.rxBuf.read a = s.rxBuf.read a) ∧
      { t with rxBuf := s.rxBuf, rxLen := s.rxLen, lastByteTime := s.lastByteTime, trace := s.trace } = s ∧
      ∀ rest : List Byte, exec (.tick now (b :: rest)) s = exec (.tick now rest) t

/-- POLL delivers the bytes held and empties the buffer when some are held and more than 10 ms have passed, and else
returns none and changes nothing (R102). -/
def Obligations.PollDeliversAfterTheSilence : Prop :=
  ∀ (now : Time) (s : State),
    (0 < s.rxLen.val → 10 < (now - s.lastByteTime).toNat →
      exec (.poll now) s = .next { s with
        rxLen := 0, returned := .polled (some ((List.range s.rxLen.val).map s.rxBuf.read)) }) ∧
    ((s.rxLen.val = 0 ∨ (now - s.lastByteTime).toNat ≤ 10) →
      exec (.poll now) s = .next { s with returned := .polled none })

/-- A TICK that brings bytes overflows once for every forty bytes held and keeps the remainder: what is held
afterwards are the last bytes of those held before and those brought, as many as are left over. Nothing is stored
above the bytes that arrive; the outputs after the overflows are the status request's, and an undiscovered block
changes nothing else (R101, R103; D8, entry 7; the phase order is D3 and the one timestamp D4,
entry 17). -/
def Obligations.BytesOverflowByForties : Prop :=
  ∀ (now : Time) (bytes : List Byte) (s : State), bytes ≠ [] → ∃ (t : State) (polled : List Output),
    exec (.tick now bytes) s = .next t ∧ t.rxLen.val = (s.rxLen.val + bytes.length) % 40 ∧
      (List.range t.rxLen.val).map t.rxBuf.read =
        ((List.range s.rxLen.val).map s.rxBuf.read ++ bytes).drop (40 * ((s.rxLen.val + bytes.length) / 40)) ∧
      (∀ a, min 40 (s.rxLen.val + bytes.length) ≤ a → t.rxBuf.read a = s.rxBuf.read a) ∧
      t.lastByteTime = now ∧
      t.trace = s.trace ++
        List.replicate ((s.rxLen.val + bytes.length) / 40) (.diag (.frameOverflow 40)) ++ polled ∧
      polled.all onLink = true ∧
      { t with
        rxBuf := s.rxBuf, rxLen := s.rxLen, lastByteTime := s.lastByteTime, trace := s.trace
        lastPoll := s.lastPoll, pollForce := s.pollForce, txBuf := s.txBuf, txLen := s.txLen } = s ∧
      (s.discovered = false → polled = [] ∧ t.lastPoll = s.lastPoll ∧ t.pollForce = s.pollForce ∧
        t.txBuf = s.txBuf ∧ t.txLen = s.txLen)

/-- A TICK that brings bytes delivers no frame: all the bytes are counted in `rx_len`, `discovered` is left alone,
and its outputs are the overflow diagnostics and then, exactly when the poll timer is due, one status request
behind its wake pulse (R103 item 2; the phase order is D3, entry 17, the strict poll comparison D28, entry 23, the
overflowing byte D8, entry 7). -/
def Obligations.TickWithBytesDeliversNoFrame : Prop :=
  ∀ (now : Time) (bytes : List Byte) (s : State), bytes ≠ [] → ∃ t : State,
    exec (.tick now bytes) s = .next t ∧ t.discovered = s.discovered ∧ t.returned = s.returned ∧
      t.rxLen.val = (s.rxLen.val + bytes.length) % 40 ∧
      t.trace = s.trace ++
        List.replicate ((s.rxLen.val + bytes.length) / 40) (.diag (.frameOverflow 40)) ++
        (if s.discovered = true ∧ (s.pollForce = true ∨ 1800000 < (now - s.lastPoll).toNat) then
          [.wake .asserted, .wake .deasserted] ++ [0x11, 0xA0, 0x00, 0x00, 0xB1].map Output.txByte
        else [])

/-- Bytes that arrive over any number of TICKs, each bringing some, are held together; the first TICK without
bytes, more than 10 ms after the last, dispatches exactly their concatenation and then runs the poll timer (R100,
R102, R103, R190; the phase order is D3 and the one timestamp D4, entry 17). -/
def Obligations.SilenceDeliversExactlyTheBytesFed : Prop :=
  ∀ (chunks : List (Time × List Byte)) (last : Time × List Byte) (now : Time) (rest : List Line) (s : State),
    s.rxLen.val = 0 → (∀ c ∈ chunks ++ [last], c.2 ≠ []) →
    (((chunks ++ [last]).map Prod.snd).flatten).length ≤ 39 → 10 < (now - last.1).toNat →
    s.pending = (chunks ++ [last]).map (fun c => Line.named (.tick c.1 c.2)) ++ .named (.tick now []) :: rest →
    ∃ u d : State, Host.Core.run Sys2Proof.core (chunks.length + 1) s = .next u ∧
      exec (.dispatch ((chunks ++ [last]).map Prod.snd).flatten) { u with rxLen := 0, pending := rest } = .next d ∧
      step u = exec (.schedPoll now) d

/-! ### The scheduler -/

/-- TICK feeds its bytes one by one, then runs POLL, DISPATCH of the frame POLL delivers, and SCHED.POLL (R190; the
order is D3, entry 17). -/
def Obligations.TickIsFeedPollDispatchSchedule : Prop :=
  (∀ (now : Time) (b : Byte) (bytes : List Byte) (s : State), ∃ u t : State, exec (.feed b now) s = .next u ∧
    exec (.tick now bytes) u = .next t ∧ exec (.tick now (b :: bytes)) s = .next t) ∧
  ∀ (now : Time) (s : State), ∃ (p t : State) (delivered : Option (List Byte)),
    exec (.poll now) s = .next p ∧ p.returned = .polled delivered ∧ exec (.tick now []) s = .next t ∧
      (delivered = none → exec (.schedPoll now) s = .next t) ∧
      ∀ f, delivered = some f → ∃ d, exec (.dispatch f) { p with returned := s.returned } = .next d ∧
        exec (.schedPoll now) d = .next t

/-- SCHED.POLL sends the status request and restarts its timer exactly when the peripheral is discovered and the
poll is forced or more than 30 minutes have passed, and else changes nothing (R192; D28, entry 23). -/
def Obligations.StatusRequestIsSentExactlyWhenDue : Prop :=
  ∀ (now : Time) (s : State),
    (s.discovered = true → (s.pollForce = true ∨ 1800000 < (now - s.lastPoll).toNat) → ∃ t,
      exec (.schedPoll now) s = .next t ∧
        Sent [0x11, 0xA0, 0x00, 0x00, 0xB1] { s with lastPoll := now, pollForce := false } t) ∧
    ((s.discovered = false ∨ (s.pollForce = false ∧ (now - s.lastPoll).toNat ≤ 1800000)) →
      exec (.schedPoll now) s = .next s)

/-- A TICK that starts and ends undiscovered puts nothing on the link and leaves `last_poll`, `tx_buf` and `tx_len`
alone (R194, R226). -/
def Obligations.UndiscoveredTickIsSilent : Prop :=
  ∀ (now : Time) (bytes : List Byte) (s t : State), exec (.tick now bytes) s = .next t → t.discovered = false →
    s.discovered = false ∧ t.lastPoll = s.lastPoll ∧ t.txBuf = s.txBuf ∧ t.txLen = s.txLen ∧
      ∃ outs, t.trace = s.trace ++ outs ∧ outs.any onLink = false

/-- The TICK that delivers a discovery request emits the event, then sends the reply, then the forced status
request, with nothing between, and leaves the force flag clear (R156, R193; D17, D18, entry 16; D3, entry 17). -/
def Obligations.DiscoveryTickSendsReplyThenStatusRequest : Prop :=
  ∀ (now : Time) (sequence : Byte) (payload : List Byte) (s : State),
    (List.range s.rxLen.val).map s.rxBuf.read = encode (.discoveryReq sequence payload) →
    10 < (now - s.lastByteTime).toNat → ∃ t u : State,
      exec (.tick now []) s = .next t ∧
      Sent [0x44, 0xA1, sequence, 0x01, 0x00, 0xE4 ^^^ sequence]
        { s with
          rxLen := 0, discovered := true, lastPoll := now, pollForce := false
          trace := s.trace ++ [.event .discoveryRequest] } u ∧
      Sent [0x11, 0xA0, 0x00, 0x00, 0xB1] u t

/-- The block sees time only through differences: a TICK commutes with shifting `now` and both timestamps by the
same amount modulo `2^TW`, so a wrap of the counter is harmless (R253; D2, D27, entries 6, 23). -/
def Obligations.TickSeesOnlyTimeDifferences : Prop :=
  ∀ (now shift : Time) (bytes : List Byte) (s : State), ∃ t,
    exec (.tick now bytes) s = .next t ∧
      exec (.tick (now + shift) bytes)
          { s with lastByteTime := s.lastByteTime + shift, lastPoll := s.lastPoll + shift } =
        .next { t with lastByteTime := t.lastByteTime + shift, lastPoll := t.lastPoll + shift }

/-! ### Reset -/

/-- RESET empties the assembler, forgets the peripheral and the timers, emits nothing, and a second RESET changes
nothing (R240; the values are D7, entries 8, 9; what the environment holds stays, entry 34). -/
def Obligations.ResetGivesTheResetValues : Prop :=
  ∀ s : State, ∃ t, exec .reset s = .next t ∧ t.rxLen.val = 0 ∧ t.lastByteTime = 0 ∧ t.discovered = false ∧
    t.lastPoll = 0 ∧ t.pollForce = false ∧ t.txLen.val = 0 ∧ t.trace = s.trace ∧ t.pending = s.pending ∧
    t.returned = s.returned ∧ exec .reset t = .next t

/-! ### Rules of the whole machine -/

/-- `discovered` is set by the dispatch of a validated frame and by nothing else, cleared by RESET and by nothing
else, and while it is false SCHED.POLL sends nothing (R16). That a TICK which brings bytes never sets it rests on
the phase order and the one timestamp, D3 and D4, entry 17; that a received row run alone sets it is the model's
choice, entry 28. -/
def Obligations.OnlyValidatedFramesSetDiscovered : Prop :=
  (∀ (i : Instr) (s t : State), exec i s = .next t →
    t.discovered = match i with
      | .reset => false
      | .dispatch f => s.discovered || decide (validateFrame f = .ok)
      | .tick now bytes => s.discovered || (bytes.isEmpty && decide (0 < s.rxLen.val) &&
          decide (10 < (now - s.lastByteTime).toNat) &&
          decide (validateFrame ((List.range s.rxLen.val).map s.rxBuf.read) = .ok))
      | i => s.discovered || i.isRx) ∧
    ∀ (now : Time) (s : State), s.discovered = false → exec (.schedPoll now) s = .next s

/-- No instruction writes a piece of state that the table of R13 does not give it to write (R13; what the frame rows own is
the model's choice, entry 28). -/
def Obligations.OnlyTheOwnersWriteState : Prop :=
  ∀ (i : Instr) (s t : State), exec i s = .next t →
    (writesBuffer i = false → t.rxBuf = s.rxBuf ∧ t.lastByteTime = s.lastByteTime) ∧
    (writesLength i = false → t.rxLen = s.rxLen) ∧
    (writesLastPoll i = false → t.lastPoll = s.lastPoll) ∧
    (writesPollForce i = false → t.pollForce = s.pollForce) ∧
    (writesOutgoing i = false → t.txBuf = s.txBuf ∧ t.txLen = s.txLen) ∧
    (returnsValue i = false → t.returned = s.returned) ∧ t.pending = s.pending

/-- Outputs are only ever added, and nothing reads them back: with another trace before it, an instruction does the
same and adds the same outputs (R26, R49). -/
def Obligations.OutputsAreNeverReadBack : Prop :=
  ∀ (i : Instr) (s t : State) (other : List Output), exec i s = .next t →
    ∃ outs, t.trace = s.trace ++ outs ∧ exec i { s with trace := other } = .next { t with trace := other ++ outs }

/-- Every step, of the step alphabet or not, keeps both buffers in canonical form and inside their 40 indices, and
what `tx_buf` holds a frame with a right length byte and checksum (R21, R28, R44). -/
def Obligations.EveryStepKeepsTheBuffers : Prop :=
  ∀ s t : State, buffersOk s = true → txFrameOk s = true → step s = .next t →
    buffersOk t = true ∧ txFrameOk t = true

/-- The invariant of step boundaries is kept by every step of an environment that asks for RESET, TICK and LOCKREQ
only: buffers canonical, outgoing frame right, `poll_force` clear (R28; that the forced
poll goes out in the same TICK is D18, entry 16, after the dispatch D3, entry 17). -/
def Obligations.BoundaryInvariantIsKept : Prop :=
  ∀ s t : State, boundaryOk s = true → externalOnly s = true → step s = .next t →
    boundaryOk t = true ∧ externalOnly t = true

/-- The state after reset meets the invariant of step boundaries (R28, R30). -/
def Obligations.ResetMeetsTheBoundaryInvariant : Prop :=
  boundaryOk State.reset = true ∧ externalOnly State.reset = true

/-- A step of the step alphabet puts on the link only whole frames of the five kinds R66 lists, at most two, each
behind its own wake pulse (R66, R178, R190). -/
def Obligations.OnlyListedFramesReachTheLink : Prop :=
  ∀ s t : State, externalOnly s = true → step s = .next t →
    ∃ (frames : List (List Byte)) (outs : List Output), frames.length ≤ 2 ∧ (∀ f ∈ frames, Sendable f) ∧
      t.trace = s.trace ++ outs ∧
      outs.filter onLink =
        (frames.map fun f => [.wake .asserted, .wake .deasserted] ++ f.map Output.txByte).flatten
end

