-- ==== Sys2Proof/Laws/Memory.lean ====
section
/-! SUPPORT. The laws of byte-addressed storage: what a write changes and leaves, and that it keeps the
canonical form. -/

namespace Sys2Proof.Laws

open Sys2Proof.Machine

theorem readCells_dropCell_other {a c : Nat} (h : c ≠ a) (cells : List Host.Cell) :
    readCells (dropCell a cells) c = readCells cells c := by
  induction cells with
  | nil => rfl
  | cons cell rest ih =>
    obtain ⟨x, v⟩ := cell
    by_cases hx : x = a
    · subst hx
      have : ¬ x = c := fun e => h e.symm
      simpa [dropCell, readCells, this] using ih
    · simp only [dropCell, List.filter_cons, hx, ne_eq, not_false_eq_true, decide_true, if_true, readCells]
      rw [← ih, dropCell]

theorem readCells_dropCell_same (a : Nat) (cells : List Host.Cell) :
    readCells (dropCell a cells) a = Memory.fill := by
  induction cells with
  | nil => rfl
  | cons cell rest ih =>
    obtain ⟨x, v⟩ := cell
    by_cases hx : x = a
    · simpa [dropCell, hx] using ih
    · simpa [dropCell, hx, readCells] using ih

theorem readCells_placeCell_other {a c : Nat} (h : c ≠ a) (b : Byte) (cells : List Host.Cell) :
    readCells (placeCell a b cells) c = readCells cells c := by
  have h' : ¬ a = c := fun e => h e.symm
  induction cells with
  | nil => simp [placeCell, readCells, h']
  | cons cell rest ih =>
    obtain ⟨x, v⟩ := cell
    by_cases hx : a < x <;> simp [placeCell, readCells, hx, h', ih]

theorem readCells_placeCell_same (a : Nat) (b : Byte) (cells : List Host.Cell) :
    readCells (placeCell a b (dropCell a cells)) a = b := by
  induction cells with
  | nil => simp [dropCell, placeCell, readCells]
  | cons cell rest ih =>
    obtain ⟨x, v⟩ := cell
    by_cases hx : x = a
    · simpa [dropCell, hx] using ih
    · by_cases hlt : a < x
      · simp [dropCell, hx, placeCell, readCells, hlt]
      · simpa [dropCell, hx, placeCell, readCells, hlt] using ih

/-- A read after a write to the same address gives the byte written. -/
@[simp] theorem read_write_same (m : Memory) (a : Nat) (b : Byte) : (m.write a b).read a = b := by
  by_cases hb : b = Memory.fill
  · simp [Memory.write, Memory.read, writeCells, hb, readCells_dropCell_same]
  · simp [Memory.write, Memory.read, writeCells, hb, readCells_placeCell_same]

/-- A write leaves every other address alone. -/
theorem read_write_other (m : Memory) {a c : Nat} (h : c ≠ a) (b : Byte) : (m.write a b).read c = m.read c := by
  by_cases hb : b = Memory.fill
  · simp [Memory.write, Memory.read, writeCells, hb, readCells_dropCell_other h]
  · simp [Memory.write, Memory.read, writeCells, hb, readCells_placeCell_other h, readCells_dropCell_other h]

/-- What a run of writes leaves at every address. -/
theorem read_writeBytes (m : Memory) (a : Nat) (bytes : List Byte) (c : Nat) :
    (m.writeBytes a bytes).read c = if a ≤ c then bytes.getD (c - a) (m.read c) else m.read c := by
  induction bytes generalizing m a with
  | nil => simp [Memory.writeBytes]
  | cons b rest ih =>
    rw [Memory.writeBytes, ih]
    rcases lt_trichotomy c a with h | h | h
    · rw [if_neg (by omega), if_neg (by omega), read_write_other m (by omega)]
    · subst h
      rw [if_neg (by omega), if_pos (le_refl c)]
      simp
    · obtain ⟨k, rfl⟩ := Nat.exists_eq_add_of_lt h
      rw [if_pos (by omega), if_pos (by omega), read_write_other m (by omega)]
      have e1 : a + k + 1 - (a + 1) = k := by omega
      have e2 : a + k + 1 - a = k + 1 := by omega
      rw [e1, e2, List.getD_cons_succ]

/-- Reading back what a run of writes stored. -/
theorem readBytes_writeBytes (m : Memory) (a : Nat) (bytes : List Byte) :
    (m.writeBytes a bytes).readBytes a bytes.length = bytes := by
  apply List.ext_getElem
  · simp [Memory.readBytes]
  · intro k h₁ h₂
    simp [Memory.readBytes, read_writeBytes, List.getElem?_eq_getElem h₂]

@[simp] theorem length_readBytes (m : Memory) (a n : Nat) : (m.readBytes a n).length = n := by
  simp [Memory.readBytes]

/-- The bytes held grow by the byte stored just above them. -/
theorem readBytes_write_succ (m : Memory) (a n : Nat) (b : Byte) :
    (m.write (a + n) b).readBytes a (n + 1) = m.readBytes a n ++ [b] := by
  simp only [Memory.readBytes, List.range_succ, List.map_append, List.map_cons, List.map_nil, read_write_same]
  congr 1
  apply List.map_congr_left
  intro k hk
  exact read_write_other m (by have := List.mem_range.mp hk; omega) b

/-! ### The canonical form -/

theorem cellsWfFrom_mono {low low' : Nat} (h : low' ≤ low) {cells : List Host.Cell}
    (hw : cellsWfFrom low cells = true) : cellsWfFrom low' cells = true := by
  cases cells with
  | nil => rfl
  | cons cell rest =>
    simp only [cellsWfFrom, Bool.and_eq_true, decide_eq_true_eq] at hw ⊢
    exact ⟨⟨by omega, hw.1.2⟩, hw.2⟩

theorem cellsWfFrom_dropCell (a : Nat) {low : Nat} {cells : List Host.Cell}
    (hw : cellsWfFrom low cells = true) : cellsWfFrom low (dropCell a cells) = true := by
  induction cells generalizing low with
  | nil => rfl
  | cons cell rest ih =>
    obtain ⟨x, v⟩ := cell
    simp only [cellsWfFrom, Bool.and_eq_true, decide_eq_true_eq] at hw
    by_cases hx : x = a
    · have := ih (cellsWfFrom_mono (low' := low) (by omega) hw.2)
      simpa [dropCell, hx] using this
    · have := ih hw.2
      simp only [dropCell, List.filter_cons, hx, ne_eq, not_false_eq_true, decide_true, if_true, cellsWfFrom,
        Bool.and_eq_true, decide_eq_true_eq]
      exact ⟨hw.1, this⟩

theorem cellsWfFrom_placeCell {a : Nat} {b : Byte} (hb : b ≠ Memory.fill) {low : Nat} {cells : List Host.Cell}
    (hw : cellsWfFrom low cells = true) (hlow : low ≤ a) (hfree : ∀ c ∈ cells, c.1 ≠ a) :
    cellsWfFrom low (placeCell a b cells) = true := by
  induction cells generalizing low with
  | nil => simp [placeCell, cellsWfFrom, hb, hlow]
  | cons cell rest ih =>
    obtain ⟨x, v⟩ := cell
    simp only [cellsWfFrom, Bool.and_eq_true, decide_eq_true_eq] at hw
    by_cases hlt : a < x
    · simp only [placeCell, if_pos hlt, cellsWfFrom, Bool.and_eq_true, decide_eq_true_eq]
      exact ⟨⟨hlow, hb⟩, ⟨by omega, hw.1.2⟩, hw.2⟩
    · have hne : x ≠ a := hfree (x, v) (by simp)
      simp only [placeCell, if_neg hlt, cellsWfFrom, Bool.and_eq_true, decide_eq_true_eq]
      exact ⟨hw.1, ih hw.2 (by omega) (fun c hc => hfree c (by simp [hc]))⟩

/-- A write keeps the canonical form. -/
theorem write_wf {m : Memory} (h : m.wf = true) (a : Nat) (b : Byte) : (m.write a b).wf = true := by
  by_cases hb : b = Memory.fill
  · simpa [Memory.write, Memory.wf, writeCells, hb] using cellsWfFrom_dropCell a h
  · simp only [Memory.write, Memory.wf, writeCells, if_neg hb]
    exact cellsWfFrom_placeCell hb (cellsWfFrom_dropCell a h) (Nat.zero_le a)
      (fun c hc => by simpa [dropCell] using (List.mem_filter.mp hc).2)

/-- A run of writes keeps the canonical form. -/
theorem writeBytes_wf {m : Memory} (h : m.wf = true) (a : Nat) (bytes : List Byte) :
    (m.writeBytes a bytes).wf = true := by
  induction bytes generalizing m a with
  | nil => exact h
  | cons b rest ih => exact ih (write_wf h a b) (a + 1)

theorem mem_placeCell {a : Nat} {b : Byte} {cells : List Host.Cell} {c : Host.Cell}
    (h : c ∈ placeCell a b cells) : c = (a, b) ∨ c ∈ cells := by
  induction cells with
  | nil => exact .inl (by simpa [placeCell] using h)
  | cons cell rest ih =>
    obtain ⟨x, v⟩ := cell
    by_cases hlt : a < x
    · simpa [placeCell, hlt] using h
    · simp only [placeCell, if_neg hlt, List.mem_cons] at h ⊢
      rcases h with h | h
      · exact .inr (.inl h)
      · exact (ih h).imp id .inr

/-- A write inside a space leaves the cells inside it. -/
theorem write_within {cap : Nat} {m : Memory} (h : m.within cap = true) {a : Nat} (ha : a < cap) (b : Byte) :
    (m.write a b).within cap = true := by
  simp only [Memory.within, List.all_eq_true, decide_eq_true_eq] at h ⊢
  have hd : ∀ c ∈ dropCell a m.cells, c.1 < cap := fun c hc => h c (List.mem_of_mem_filter hc)
  intro c hc
  by_cases hb : b = Memory.fill
  · exact hd c (by simpa [Memory.write, writeCells, hb] using hc)
  · rw [Memory.write, writeCells, if_neg hb] at hc
    rcases mem_placeCell hc with rfl | hc
    · exact ha
    · exact hd c hc

/-- A run of writes inside a space leaves the cells inside it. -/
theorem writeBytes_within {cap : Nat} {m : Memory} (h : m.within cap = true) {a : Nat} {bytes : List Byte}
    (ha : a + bytes.length ≤ cap) : (m.writeBytes a bytes).within cap = true := by
  induction bytes generalizing m a with
  | nil => exact h
  | cons b rest ih =>
    simp only [List.length_cons] at ha
    exact ih (write_within h (by omega) b) (by omega)

theorem reset_memory_wf : State.reset.rxBuf.wf = true ∧ State.reset.txBuf.wf = true := by decide

end Sys2Proof.Laws
end

