-- ==== Sys2Proof/Laws/State.lean ====
section
/-! SUPPORT. One lemma per field per update, so that no proof unfolds a record update. -/

namespace Sys2Proof.Laws

open Sys2Proof.Machine

/-! ### emit -/

@[simp] theorem emit_rxBuf (os : List Output) (s : State) : (emit os s).rxBuf = s.rxBuf := rfl
@[simp] theorem emit_rxLen (os : List Output) (s : State) : (emit os s).rxLen = s.rxLen := rfl
@[simp] theorem emit_lastByteTime (os : List Output) (s : State) : (emit os s).lastByteTime = s.lastByteTime := rfl
@[simp] theorem emit_discovered (os : List Output) (s : State) : (emit os s).discovered = s.discovered := rfl
@[simp] theorem emit_lastPoll (os : List Output) (s : State) : (emit os s).lastPoll = s.lastPoll := rfl
@[simp] theorem emit_pollForce (os : List Output) (s : State) : (emit os s).pollForce = s.pollForce := rfl
@[simp] theorem emit_txBuf (os : List Output) (s : State) : (emit os s).txBuf = s.txBuf := rfl
@[simp] theorem emit_txLen (os : List Output) (s : State) : (emit os s).txLen = s.txLen := rfl
@[simp] theorem emit_pending (os : List Output) (s : State) : (emit os s).pending = s.pending := rfl
@[simp] theorem emit_trace (os : List Output) (s : State) : (emit os s).trace = s.trace ++ os := rfl
@[simp] theorem emit_returned (os : List Output) (s : State) : (emit os s).returned = s.returned := rfl

/-! ### raise -/

@[simp] theorem raise_rxBuf (d : Diag) (s : State) : (raise d s).rxBuf = s.rxBuf := rfl
@[simp] theorem raise_rxLen (d : Diag) (s : State) : (raise d s).rxLen = s.rxLen := rfl
@[simp] theorem raise_lastByteTime (d : Diag) (s : State) : (raise d s).lastByteTime = s.lastByteTime := rfl
@[simp] theorem raise_discovered (d : Diag) (s : State) : (raise d s).discovered = s.discovered := rfl
@[simp] theorem raise_lastPoll (d : Diag) (s : State) : (raise d s).lastPoll = s.lastPoll := rfl
@[simp] theorem raise_pollForce (d : Diag) (s : State) : (raise d s).pollForce = s.pollForce := rfl
@[simp] theorem raise_txBuf (d : Diag) (s : State) : (raise d s).txBuf = s.txBuf := rfl
@[simp] theorem raise_txLen (d : Diag) (s : State) : (raise d s).txLen = s.txLen := rfl
@[simp] theorem raise_pending (d : Diag) (s : State) : (raise d s).pending = s.pending := rfl
@[simp] theorem raise_trace (d : Diag) (s : State) : (raise d s).trace = s.trace ++ [.diag d] := rfl
@[simp] theorem raise_returned (d : Diag) (s : State) : (raise d s).returned = s.returned := rfl

/-! ### giveBack -/

@[simp] theorem giveBack_rxBuf (v : Returned) (s : State) : (giveBack v s).rxBuf = s.rxBuf := rfl
@[simp] theorem giveBack_rxLen (v : Returned) (s : State) : (giveBack v s).rxLen = s.rxLen := rfl
@[simp] theorem giveBack_lastByteTime (v : Returned) (s : State) : (giveBack v s).lastByteTime = s.lastByteTime := rfl
@[simp] theorem giveBack_discovered (v : Returned) (s : State) : (giveBack v s).discovered = s.discovered := rfl
@[simp] theorem giveBack_lastPoll (v : Returned) (s : State) : (giveBack v s).lastPoll = s.lastPoll := rfl
@[simp] theorem giveBack_pollForce (v : Returned) (s : State) : (giveBack v s).pollForce = s.pollForce := rfl
@[simp] theorem giveBack_txBuf (v : Returned) (s : State) : (giveBack v s).txBuf = s.txBuf := rfl
@[simp] theorem giveBack_txLen (v : Returned) (s : State) : (giveBack v s).txLen = s.txLen := rfl
@[simp] theorem giveBack_pending (v : Returned) (s : State) : (giveBack v s).pending = s.pending := rfl
@[simp] theorem giveBack_trace (v : Returned) (s : State) : (giveBack v s).trace = s.trace := rfl
@[simp] theorem giveBack_returned (v : Returned) (s : State) : (giveBack v s).returned = v := rfl

/-! ### build -/

@[simp] theorem build_rxBuf (o : OutFrame) (s : State) : (build o s).rxBuf = s.rxBuf := rfl
@[simp] theorem build_rxLen (o : OutFrame) (s : State) : (build o s).rxLen = s.rxLen := rfl
@[simp] theorem build_lastByteTime (o : OutFrame) (s : State) : (build o s).lastByteTime = s.lastByteTime := rfl
@[simp] theorem build_discovered (o : OutFrame) (s : State) : (build o s).discovered = s.discovered := rfl
@[simp] theorem build_lastPoll (o : OutFrame) (s : State) : (build o s).lastPoll = s.lastPoll := rfl
@[simp] theorem build_pollForce (o : OutFrame) (s : State) : (build o s).pollForce = s.pollForce := rfl
@[simp] theorem build_txBuf (o : OutFrame) (s : State) : (build o s).txBuf = s.txBuf.writeBytes 0 (frameBytes o.frame) := rfl
@[simp] theorem build_pending (o : OutFrame) (s : State) : (build o s).pending = s.pending := rfl
@[simp] theorem build_trace (o : OutFrame) (s : State) : (build o s).trace = s.trace := rfl
@[simp] theorem build_returned (o : OutFrame) (s : State) : (build o s).returned = s.returned := rfl

/-! ### transmit -/

@[simp] theorem transmit_rxBuf (s : State) : (transmit s).rxBuf = s.rxBuf := rfl
@[simp] theorem transmit_rxLen (s : State) : (transmit s).rxLen = s.rxLen := rfl
@[simp] theorem transmit_lastByteTime (s : State) : (transmit s).lastByteTime = s.lastByteTime := rfl
@[simp] theorem transmit_discovered (s : State) : (transmit s).discovered = s.discovered := rfl
@[simp] theorem transmit_lastPoll (s : State) : (transmit s).lastPoll = s.lastPoll := rfl
@[simp] theorem transmit_pollForce (s : State) : (transmit s).pollForce = s.pollForce := rfl
@[simp] theorem transmit_txBuf (s : State) : (transmit s).txBuf = s.txBuf := rfl
@[simp] theorem transmit_txLen (s : State) : (transmit s).txLen = s.txLen := rfl
@[simp] theorem transmit_pending (s : State) : (transmit s).pending = s.pending := rfl
@[simp] theorem transmit_trace (s : State) : (transmit s).trace = s.trace ++ sendOutputs (s.txBuf.readBytes 0 s.txLen) := rfl
@[simp] theorem transmit_returned (s : State) : (transmit s).returned = s.returned := rfl

/-! ### markDiscovered -/

@[simp] theorem markDiscovered_rxBuf (s : State) : (markDiscovered s).rxBuf = s.rxBuf := rfl
@[simp] theorem markDiscovered_rxLen (s : State) : (markDiscovered s).rxLen = s.rxLen := rfl
@[simp] theorem markDiscovered_lastByteTime (s : State) : (markDiscovered s).lastByteTime = s.lastByteTime := rfl
@[simp] theorem markDiscovered_discovered (s : State) : (markDiscovered s).discovered = true := rfl
@[simp] theorem markDiscovered_lastPoll (s : State) : (markDiscovered s).lastPoll = s.lastPoll := rfl
@[simp] theorem markDiscovered_pollForce (s : State) : (markDiscovered s).pollForce = s.pollForce := rfl
@[simp] theorem markDiscovered_txBuf (s : State) : (markDiscovered s).txBuf = s.txBuf := rfl
@[simp] theorem markDiscovered_txLen (s : State) : (markDiscovered s).txLen = s.txLen := rfl
@[simp] theorem markDiscovered_pending (s : State) : (markDiscovered s).pending = s.pending := rfl
@[simp] theorem markDiscovered_trace (s : State) : (markDiscovered s).trace = s.trace := rfl
@[simp] theorem markDiscovered_returned (s : State) : (markDiscovered s).returned = s.returned := rfl

/-! ### storeByte -/

@[simp] theorem storeByte_rxBuf (b : Byte) (now : Time) (s : State) : (storeByte b now s).rxBuf = s.rxBuf.write s.rxLen b := rfl
@[simp] theorem storeByte_rxLen (b : Byte) (now : Time) (s : State) : (storeByte b now s).rxLen = s.rxLen := rfl
@[simp] theorem storeByte_lastByteTime (b : Byte) (now : Time) (s : State) : (storeByte b now s).lastByteTime = now := rfl
@[simp] theorem storeByte_discovered (b : Byte) (now : Time) (s : State) : (storeByte b now s).discovered = s.discovered := rfl
@[simp] theorem storeByte_lastPoll (b : Byte) (now : Time) (s : State) : (storeByte b now s).lastPoll = s.lastPoll := rfl
@[simp] theorem storeByte_pollForce (b : Byte) (now : Time) (s : State) : (storeByte b now s).pollForce = s.pollForce := rfl
@[simp] theorem storeByte_txBuf (b : Byte) (now : Time) (s : State) : (storeByte b now s).txBuf = s.txBuf := rfl
@[simp] theorem storeByte_txLen (b : Byte) (now : Time) (s : State) : (storeByte b now s).txLen = s.txLen := rfl
@[simp] theorem storeByte_pending (b : Byte) (now : Time) (s : State) : (storeByte b now s).pending = s.pending := rfl
@[simp] theorem storeByte_trace (b : Byte) (now : Time) (s : State) : (storeByte b now s).trace = s.trace := rfl
@[simp] theorem storeByte_returned (b : Byte) (now : Time) (s : State) : (storeByte b now s).returned = s.returned := rfl

/-! ### takeLine -/

@[simp] theorem takeLine_rxBuf (rest : List Line) (s : State) : (takeLine rest s).rxBuf = s.rxBuf := rfl
@[simp] theorem takeLine_rxLen (rest : List Line) (s : State) : (takeLine rest s).rxLen = s.rxLen := rfl
@[simp] theorem takeLine_lastByteTime (rest : List Line) (s : State) : (takeLine rest s).lastByteTime = s.lastByteTime := rfl
@[simp] theorem takeLine_discovered (rest : List Line) (s : State) : (takeLine rest s).discovered = s.discovered := rfl
@[simp] theorem takeLine_lastPoll (rest : List Line) (s : State) : (takeLine rest s).lastPoll = s.lastPoll := rfl
@[simp] theorem takeLine_pollForce (rest : List Line) (s : State) : (takeLine rest s).pollForce = s.pollForce := rfl
@[simp] theorem takeLine_txBuf (rest : List Line) (s : State) : (takeLine rest s).txBuf = s.txBuf := rfl
@[simp] theorem takeLine_txLen (rest : List Line) (s : State) : (takeLine rest s).txLen = s.txLen := rfl
@[simp] theorem takeLine_pending (rest : List Line) (s : State) : (takeLine rest s).pending = rest := rfl
@[simp] theorem takeLine_trace (rest : List Line) (s : State) : (takeLine rest s).trace = s.trace := rfl
@[simp] theorem takeLine_returned (rest : List Line) (s : State) : (takeLine rest s).returned = s.returned := rfl
@[simp] theorem build_txLen (o : OutFrame) (s : State) :
    ((build o s).txLen : Nat) = Config.overhead + o.payload.length := rfl

/-! ### forcePoll -/

@[simp] theorem forcePoll_false (s : State) : forcePoll false s = s := rfl
@[simp] theorem forcePoll_pollForce (force : Bool) (s : State) :
    (forcePoll force s).pollForce = (force || s.pollForce) := by cases force <;> rfl
@[simp] theorem forcePoll_rxBuf (force : Bool) (s : State) : (forcePoll force s).rxBuf = s.rxBuf := by cases force <;> rfl
@[simp] theorem forcePoll_rxLen (force : Bool) (s : State) : (forcePoll force s).rxLen = s.rxLen := by cases force <;> rfl
@[simp] theorem forcePoll_lastByteTime (force : Bool) (s : State) : (forcePoll force s).lastByteTime = s.lastByteTime := by cases force <;> rfl
@[simp] theorem forcePoll_discovered (force : Bool) (s : State) : (forcePoll force s).discovered = s.discovered := by cases force <;> rfl
@[simp] theorem forcePoll_lastPoll (force : Bool) (s : State) : (forcePoll force s).lastPoll = s.lastPoll := by cases force <;> rfl
@[simp] theorem forcePoll_txBuf (force : Bool) (s : State) : (forcePoll force s).txBuf = s.txBuf := by cases force <;> rfl
@[simp] theorem forcePoll_txLen (force : Bool) (s : State) : (forcePoll force s).txLen = s.txLen := by cases force <;> rfl
@[simp] theorem forcePoll_pending (force : Bool) (s : State) : (forcePoll force s).pending = s.pending := by cases force <;> rfl
@[simp] theorem forcePoll_trace (force : Bool) (s : State) : (forcePoll force s).trace = s.trace := by cases force <;> rfl
@[simp] theorem forcePoll_returned (force : Bool) (s : State) : (forcePoll force s).returned = s.returned := by cases force <;> rfl

/-! ### resetBlock -/

@[simp] theorem resetBlock_rxBuf (s : State) : (resetBlock s).rxBuf = State.reset.rxBuf := rfl
@[simp] theorem resetBlock_rxLen (s : State) : (resetBlock s).rxLen = State.reset.rxLen := rfl
@[simp] theorem resetBlock_lastByteTime (s : State) : (resetBlock s).lastByteTime = State.reset.lastByteTime := rfl
@[simp] theorem resetBlock_discovered (s : State) : (resetBlock s).discovered = State.reset.discovered := rfl
@[simp] theorem resetBlock_lastPoll (s : State) : (resetBlock s).lastPoll = State.reset.lastPoll := rfl
@[simp] theorem resetBlock_pollForce (s : State) : (resetBlock s).pollForce = State.reset.pollForce := rfl
@[simp] theorem resetBlock_txBuf (s : State) : (resetBlock s).txBuf = State.reset.txBuf := rfl
@[simp] theorem resetBlock_txLen (s : State) : (resetBlock s).txLen = State.reset.txLen := rfl
@[simp] theorem resetBlock_pending (s : State) : (resetBlock s).pending = s.pending := rfl
@[simp] theorem resetBlock_trace (s : State) : (resetBlock s).trace = s.trace := rfl
@[simp] theorem resetBlock_returned (s : State) : (resetBlock s).returned = s.returned := rfl

end Sys2Proof.Laws
end

