-- ==== Sys2Proof/Laws/Ops.lean ====
section
/-! SUPPORT. What each shared operation can do, said once. -/

namespace Sys2Proof.Laws

open Sys2Proof.Machine

/-! ### Outputs -/

@[simp] theorem emit_nil (s : State) : emit [] s = s := by simp [emit]

theorem emit_emit (a b : List Output) (s : State) : emit b (emit a s) = emit (a ++ b) s := by
  simp [emit]

/-! ### The outgoing frame -/

theorem length_frameBytes (fr : Frame) : (frameBytes fr).length = Config.overhead + fr.payload.length := by
  simp [frameBytes, Config.overhead]
  omega

/-- BUILD, then TRANSMIT: exactly the built frame goes out, behind its wake pulse. -/
theorem send_eq (o : OutFrame) (s : State) :
    send o s = emit (sendOutputs (frameBytes o.frame)) (build o s) := by
  have h : (s.txBuf.writeBytes 0 (frameBytes o.frame)).readBytes 0 (Config.overhead + o.payload.length) =
      frameBytes o.frame := by
    have := readBytes_writeBytes s.txBuf 0 (frameBytes o.frame)
    rwa [length_frameBytes] at this
  rw [send, transmit, build_txBuf, build_txLen, h]

@[simp] theorem send_trace (o : OutFrame) (s : State) :
    (send o s).trace = s.trace ++ sendOutputs (frameBytes o.frame) := by rw [send_eq]; rfl

@[simp] theorem send_txBuf (o : OutFrame) (s : State) :
    (send o s).txBuf = s.txBuf.writeBytes 0 (frameBytes o.frame) := rfl

@[simp] theorem send_txLen (o : OutFrame) (s : State) :
    ((send o s).txLen : Nat) = Config.overhead + o.payload.length := rfl

@[simp] theorem send_rxBuf (o : OutFrame) (s : State) : (send o s).rxBuf = s.rxBuf := rfl
@[simp] theorem send_rxLen (o : OutFrame) (s : State) : (send o s).rxLen = s.rxLen := rfl
@[simp] theorem send_lastByteTime (o : OutFrame) (s : State) : (send o s).lastByteTime = s.lastByteTime := rfl
@[simp] theorem send_discovered (o : OutFrame) (s : State) : (send o s).discovered = s.discovered := rfl
@[simp] theorem send_lastPoll (o : OutFrame) (s : State) : (send o s).lastPoll = s.lastPoll := rfl
@[simp] theorem send_pollForce (o : OutFrame) (s : State) : (send o s).pollForce = s.pollForce := rfl
@[simp] theorem send_pending (o : OutFrame) (s : State) : (send o s).pending = s.pending := rfl
@[simp] theorem send_returned (o : OutFrame) (s : State) : (send o s).returned = s.returned := rfl

/-! ### The timers -/

/-- When the RX idle timer has expired. -/
theorem frameDue_iff (now : Time) (s : State) :
    frameDue now s = true ↔ 0 < s.rxLen.val ∧ 10 < (now - s.lastByteTime).toNat := by
  simp only [frameDue, Bool.and_eq_true, decide_eq_true_eq]
  exact Iff.rfl

/-- When a status request is due. -/
theorem pollDue_iff (now : Time) (s : State) :
    pollDue now s = true ↔
      s.discovered = true ∧ (s.pollForce = true ∨ 1800000 < (now - s.lastPoll).toNat) := by
  simp only [pollDue, Bool.and_eq_true, Bool.or_eq_true, decide_eq_true_eq]
  exact Iff.rfl

/-! ### The assembler -/

/-- FEED does one of two things: it advances, or the byte completes the capacity and all are discarded. -/
theorem feed_cases (b : Byte) (now : Time) (s : State) :
    (∃ h : s.rxLen.val + 1 < Config.rxCap,
      feed b now s = { storeByte b now s with rxLen := ⟨s.rxLen.val + 1, h⟩ }) ∨
    (s.rxLen.val + 1 = Config.rxCap ∧
      feed b now s = { raise (.frameOverflow Config.rxCap) (storeByte b now s) with rxLen := 0 }) := by
  by_cases h : s.rxLen.val + 1 = Config.rxCap
  · exact .inr ⟨h, by rw [feed, dif_pos h]⟩
  · have h' := s.rxLen.isLt
    exact .inl ⟨by omega, by rw [feed, dif_neg h]⟩

/-- POLL delivers the bytes held and empties the buffer, or does nothing. -/
theorem poll_cases (now : Time) (s : State) :
    (frameDue now s = true ∧ poll now s = (some (heldBytes s), { s with rxLen := 0 })) ∨
    (frameDue now s = false ∧ poll now s = (none, s)) := by
  cases h : frameDue now s <;> simp [poll, h]

/-! ### The dispatcher -/

/-- DISPATCH drops the frame with one diagnostic, or performs its command's rule. -/
theorem dispatch_cases (f : List Byte) (s : State) :
    (∃ code, validateFrame f = .error code ∧ dispatch f s = raise (checkDiag code f) s) ∨
    (validateFrame f = .ok ∧ dispatch f s = perform (commandRule (decodeFields f)) s) := by
  cases h : validateFrame f with
  | ok => exact .inr ⟨rfl, by rw [dispatch, h]⟩
  | error code => exact .inl ⟨code, rfl, by rw [dispatch, h]⟩

/-! ### The scheduler -/

/-- SCHED.POLL sends the status request and restarts the timer, or does nothing. -/
theorem schedPoll_cases (now : Time) (s : State) :
    (pollDue now s = true ∧
      schedPoll now s = { send statusRequestFrame s with lastPoll := now, pollForce := false }) ∨
    (pollDue now s = false ∧ schedPoll now s = s) := by
  cases h : pollDue now s <;> simp [schedPoll, h]

/-- Phase 2 of TICK: the bytes held are dispatched from the emptied buffer, or nothing happens. -/
theorem pollAndDispatch_cases (now : Time) (s : State) :
    (frameDue now s = true ∧ pollAndDispatch now s = dispatch (heldBytes s) { s with rxLen := 0 }) ∨
    (frameDue now s = false ∧ pollAndDispatch now s = s) := by
  rcases poll_cases now s with ⟨h, hp⟩ | ⟨h, hp⟩
  · exact .inl ⟨h, by rw [pollAndDispatch, hp]⟩
  · exact .inr ⟨h, by rw [pollAndDispatch, hp]⟩

end Sys2Proof.Laws
end

