-- ==== Sys2Proof/Laws/PerInstr.lean ====
section
/-! SUPPORT. Statements made for each constructor of `Instr`, one lemma per constructor. -/

namespace Sys2Proof.Laws

/-- An encoding's length is what the frame format says of it: the payload's length and 5 bytes of overhead,
5 to 40 in all for a well-formed instruction, and nothing for a STEP row (R60, R61, R71). -/
def EncodedLength.Statement (i : Instr) : Prop :=
  match i.frame? with
  | none => encode i = []
  | some fr => (encode i).length = fr.payload.length + Config.overhead ∧
      (i.wellFormed = true → 5 ≤ (encode i).length ∧ (encode i).length ≤ 40)

/-- The statement for an instruction of format FRAME, from the bound on its payload. -/
theorem encodedLength_frame {i : Instr} {fr : Frame} (h : i.frame? = some fr)
    (hb : i.wellFormed = true → fr.payload.length ≤ Config.payloadMax) : EncodedLength.Statement i := by
  have e : encode i = frameBytes fr := by rw [encode, h]
  simp only [EncodedLength.Statement, h, e, length_frameBytes, Config.overhead]
  refine ⟨by omega, fun hw => ?_⟩
  have := hb hw
  simp only [Config.payloadMax] at this
  omega

theorem EncodedLength.statusRpt (alt : Bool) (sequence : Byte) (payload : List Byte) : EncodedLength.Statement (.statusRpt alt sequence payload) :=
  encodedLength_frame rfl (fun h => of_decide_eq_true h)
theorem EncodedLength.evtJam (sequence : Byte) (rest : List Byte) : EncodedLength.Statement (.evtJam sequence rest) :=
  encodedLength_frame rfl (fun h => of_decide_eq_true h)
theorem EncodedLength.evtPinUnlock (sequence : Byte) (rest : List Byte) : EncodedLength.Statement (.evtPinUnlock sequence rest) :=
  encodedLength_frame rfl (fun h => of_decide_eq_true h)
theorem EncodedLength.evtManualLock (sequence : Byte) (rest : List Byte) : EncodedLength.Statement (.evtManualLock sequence rest) :=
  encodedLength_frame rfl (fun h => of_decide_eq_true h)
theorem EncodedLength.evtModuleLock (sequence : Byte) (rest : List Byte) : EncodedLength.Statement (.evtModuleLock sequence rest) :=
  encodedLength_frame rfl (fun h => of_decide_eq_true h)
theorem EncodedLength.evtModuleUnlock (sequence : Byte) (rest : List Byte) : EncodedLength.Statement (.evtModuleUnlock sequence rest) :=
  encodedLength_frame rfl (fun h => of_decide_eq_true h)
theorem EncodedLength.evtTimeoutRelock (sequence : Byte) (rest : List Byte) : EncodedLength.Statement (.evtTimeoutRelock sequence rest) :=
  encodedLength_frame rfl (fun h => of_decide_eq_true h)
theorem EncodedLength.evtNfcUnlock (sequence : Byte) (rest : List Byte) : EncodedLength.Statement (.evtNfcUnlock sequence rest) :=
  encodedLength_frame rfl (fun h => of_decide_eq_true h)
theorem EncodedLength.evtLowBattery (sequence : Byte) (rest : List Byte) : EncodedLength.Statement (.evtLowBattery sequence rest) :=
  encodedLength_frame rfl (fun h => of_decide_eq_true h)
theorem EncodedLength.evtUnknown (sequence : Byte) (payload : List Byte) : EncodedLength.Statement (.evtUnknown sequence payload) :=
  encodedLength_frame rfl (fun h => of_decide_eq_true (Bool.and_eq_true_iff.mp h).1)
theorem EncodedLength.settingChg (sequence : Byte) (payload : List Byte) : EncodedLength.Statement (.settingChg sequence payload) :=
  encodedLength_frame rfl (fun h => of_decide_eq_true h)
theorem EncodedLength.configEnter (sequence : Byte) (payload : List Byte) : EncodedLength.Statement (.configEnter sequence payload) :=
  encodedLength_frame rfl (fun h => of_decide_eq_true h)
theorem EncodedLength.discoveryReq (sequence : Byte) (payload : List Byte) : EncodedLength.Statement (.discoveryReq sequence payload) :=
  encodedLength_frame rfl (fun h => of_decide_eq_true h)
theorem EncodedLength.cmdUnknown (command sequence : Byte) (payload : List Byte) : EncodedLength.Statement (.cmdUnknown command sequence payload) :=
  encodedLength_frame rfl (fun h => of_decide_eq_true (Bool.and_eq_true_iff.mp h).1)
theorem EncodedLength.lockCmdLock : EncodedLength.Statement .lockCmdLock :=
  encodedLength_frame rfl (fun _ => by simp)
theorem EncodedLength.lockCmdUnlock : EncodedLength.Statement .lockCmdUnlock :=
  encodedLength_frame rfl (fun _ => by simp)
theorem EncodedLength.statusReq : EncodedLength.Statement .statusReq :=
  encodedLength_frame rfl (fun _ => by simp)
theorem EncodedLength.settingAck (sequence : Byte) : EncodedLength.Statement (.settingAck sequence) :=
  encodedLength_frame rfl (fun _ => by simp)
theorem EncodedLength.discoveryRpl (sequence : Byte) : EncodedLength.Statement (.discoveryRpl sequence) :=
  encodedLength_frame rfl (fun _ => by simp)
theorem EncodedLength.reset : EncodedLength.Statement .reset := rfl
theorem EncodedLength.tick (now : Time) (rxBytes : List Byte) : EncodedLength.Statement (.tick now rxBytes) := rfl
theorem EncodedLength.lockReq (target : LockTarget) : EncodedLength.Statement (.lockReq target) := rfl
theorem EncodedLength.feed (b : Byte) (now : Time) : EncodedLength.Statement (.feed b now) := rfl
theorem EncodedLength.poll (now : Time) : EncodedLength.Statement (.poll now) := rfl
theorem EncodedLength.xsumCompute (bytes : List Byte) : EncodedLength.Statement (.xsumCompute bytes) := rfl
theorem EncodedLength.xsumVerify (frame : List Byte) : EncodedLength.Statement (.xsumVerify frame) := rfl
theorem EncodedLength.validate (f : List Byte) : EncodedLength.Statement (.validate f) := rfl
theorem EncodedLength.decode (f : List Byte) : EncodedLength.Statement (.decode f) := rfl
theorem EncodedLength.dispatch (f : List Byte) : EncodedLength.Statement (.dispatch f) := rfl
theorem EncodedLength.build (command source sequence : Byte) (payload : List Byte) : EncodedLength.Statement (.build command source sequence payload) := rfl
theorem EncodedLength.transmit : EncodedLength.Statement .transmit := rfl
theorem EncodedLength.schedPoll (now : Time) : EncodedLength.Statement (.schedPoll now) := rfl

end Sys2Proof.Laws
end

