-- ==== Sys2Proof/Laws/Safety.lean ====
section
/-! SUPPORT. The predicates on states, as propositions. -/

namespace Sys2Proof.Laws

open Sys2Proof.Machine Sys2Proof.Safety

theorem buffersOk_iff (s : State) :
    buffersOk s = true ↔ s.rxBuf.wf = true ∧ s.rxBuf.within Config.rxCap = true ∧ s.txBuf.wf = true ∧
      s.txBuf.within Config.txCap = true := by
  simp only [buffersOk, Bool.and_eq_true, and_assoc]

theorem txFrameOk_iff (s : State) :
    txFrameOk s = true ↔ s.txLen.val = 0 ∨ (Config.overhead ≤ s.txLen.val ∧
      (s.txBuf.read 3).toNat = s.txLen.val - Config.overhead ∧
      s.txBuf.read (s.txLen.val - 1) = xsum (s.txBuf.readBytes 0 (s.txLen.val - 1))) := by
  simp only [txFrameOk, Bool.or_eq_true, Bool.and_eq_true, decide_eq_true_eq, and_assoc]

end Sys2Proof.Laws
end

