-- ==== Sys2Proof/Tests/Slice0.lean ====
section
/-! SUPPORT. Tests on single steps, with values from spec/95_test_vectors.md (named V-.. and L1-.. there), and for
every obligation with hypotheses a state and operands that meet them. -/

namespace Sys2Proof.Tests

open Sys2Proof Sys2Proof.Machine Sys2Proof.Safety

/-! ### Helpers -/

/-- The reset state with some bytes held by the assembler since a time. -/
def holding (held : List Byte) (since : Time) : State :=
  { State.reset with rxBuf := Memory.writeBytes ⟨[]⟩ 0 held, rxLen := Fin.ofNat 40 held.length, lastByteTime := since }

/-- The reset state with one pending line. -/
def asked (line : Line) : State := { State.reset with pending := [line] }

/-- The state an instruction leaves, if it answers one. -/
def left (i : Instr) (s : State) : Option State :=
  match exec i s with
  | .next t => some t
  | .fault _ => none
  | .refused _ => none

/-- What the instruction adds to the trace of the reset state. -/
def outputs (i : Instr) : Option (List Output) := (left i State.reset).map State.trace

/-- What the instruction returns to its caller. -/
def result (i : Instr) : Option Returned := (left i State.reset).map State.returned

/-- The pulse and the bytes of one transmission, as the vectors write them. -/
def tx (bytes : List Byte) : List Output := [.wake .asserted, .wake .deasserted] ++ bytes.map Output.txByte

/-- The instruction that a frame's bytes decode to. -/
def decoded (raw : List Byte) : Option Instr :=
  match decodeFrame raw with
  | .ok i => some i
  | .error _ => none

/-- The bytes 01, 02, .. of a payload of the given length, as in V-ENC-8. -/
def count (n : Nat) : List Byte := (List.range n).map fun k => BitVec.ofNat 8 (k + 1)

/-! ### The memory form at reset -/

theorem test_reset_memory : State.reset.rxBuf.wf && State.reset.txBuf.wf = true := by decide

/-! ### WellFormed refuses an ill-formed term of each check (R60, R71, R120, R170) -/

theorem test_wf_payload : (Instr.statusRpt false 0 (count 36)).wellFormed = false := by decide
theorem test_wf_rest : (Instr.evtJam 0 (count 35)).wellFormed = false := by decide
theorem test_wf_subcode : (Instr.evtUnknown 0 [0xA7]).wellFormed = false := by decide
theorem test_wf_unknown_payload : (Instr.evtUnknown 0 (count 36)).wellFormed = false := by decide
theorem test_wf_command : (Instr.cmdUnknown 0x44 0 []).wellFormed = false := by decide
theorem test_wf_decode_short : (Instr.decode [0x30, 0xB0, 0x00]).wellFormed = false := by decide
theorem test_wf_decode_length : (Instr.decode [0x30, 0xB0, 0x00, 0x02, 0x13]).wellFormed = false := by decide
theorem test_wf_dispatch_empty : (Instr.dispatch []).wellFormed = false := by decide
theorem test_wf_dispatch_long : (Instr.dispatch (count 40)).wellFormed = false := by decide
theorem test_wf_build : (Instr.build 0x55 0xB0 0 (count 36)).wellFormed = false := by decide

/-! ### Decoding of bytes written out from R65 and R66 -/

/-- L1-B. -/
theorem test_decode_status : decoded [0x11, 0xB0, 0x00, 0x01, 0xFF, 0x5F] = some (.statusRpt false 0 [0xFF]) := by
  decide
/-- V-VAL-9. -/
theorem test_decode_status_alt : decoded [0x11, 0xB1, 0x00, 0x01, 0xFF, 0x5E] = some (.statusRpt true 0 [0xFF]) := by
  decide
theorem test_decode_jam : decoded [0x30, 0xB0, 0x01, 0x01, 0x09, 0x89] = some (.evtJam 1 []) := by decide
/-- V-DSP-11. -/
theorem test_decode_pin :
    decoded [0x30, 0xB0, 0x05, 0x03, 0x13, 0x07, 0xAA, 0x38] = some (.evtPinUnlock 5 [0x07, 0xAA]) := by decide
/-- V-DSP-13. -/
theorem test_decode_manual : decoded [0x30, 0xB0, 0x02, 0x02, 0x15, 0x07, 0x92] = some (.evtManualLock 2 [7]) := by
  decide
/-- V-DSP-14 to V-DSP-16. -/
theorem test_decode_module_lock : decoded [0x30, 0xB0, 0x01, 0x01, 0x18, 0x98] = some (.evtModuleLock 1 []) := by
  decide
theorem test_decode_module_unlock : decoded [0x30, 0xB0, 0x01, 0x01, 0x19, 0x99] = some (.evtModuleUnlock 1 []) := by
  decide
theorem test_decode_timeout : decoded [0x30, 0xB0, 0x01, 0x01, 0x1B, 0x9B] = some (.evtTimeoutRelock 1 []) := by
  decide
/-- V-DSP-17, V-DSP-18. -/
theorem test_decode_nfc : decoded [0x30, 0xB0, 0x01, 0x02, 0x90, 0x02, 0x11] = some (.evtNfcUnlock 1 [2]) := by decide
theorem test_decode_battery : decoded [0x30, 0xB0, 0x01, 0x01, 0xA7, 0x27] = some (.evtLowBattery 1 []) := by decide
/-- V-DSP-19, V-DSP-20. -/
theorem test_decode_event_unknown :
    decoded [0x30, 0xB0, 0x01, 0x01, 0x42, 0xC2] = some (.evtUnknown 1 [0x42]) ∧
      decoded [0x30, 0xB0, 0x01, 0x00, 0x81] = some (.evtUnknown 1 []) := by decide
/-- V-DSP-21 to V-DSP-24. -/
theorem test_decode_setting : decoded [0x33, 0xB0, 0x2A, 0x02, 0x01, 0x02, 0xA8] = some (.settingChg 0x2A [1, 2]) := by
  decide
theorem test_decode_config : decoded [0x37, 0xB0, 0x00, 0x00, 0x87] = some (.configEnter 0 []) := by decide
theorem test_decode_discovery : decoded [0x44, 0xB0, 0x07, 0x00, 0xF3] = some (.discoveryReq 7 []) := by decide
theorem test_decode_unknown :
    decoded [0x55, 0xB0, 0x09, 0x03, 0x01, 0x02, 0x03, 0xEF] = some (.cmdUnknown 0x55 9 [1, 2, 3]) := by decide
/-- V-DSP-26: from the peripheral, 0x10 is an unknown command and no lock command. -/
theorem test_decode_lock_from_peripheral :
    decoded [0x10, 0xB0, 0x00, 0x01, 0xFF, 0x5E] = some (.cmdUnknown 0x10 0 [0xFF]) := by decide
/-- V-ENC-1 to V-ENC-5. -/
theorem test_decode_status_request : decoded [0x11, 0xA0, 0x00, 0x00, 0xB1] = some .statusReq := by decide
theorem test_decode_lock : decoded [0x10, 0xA0, 0x00, 0x01, 0xFF, 0x4E] = some .lockCmdLock := by decide
theorem test_decode_unlock : decoded [0x10, 0xA0, 0x00, 0x01, 0x00, 0xB1] = some .lockCmdUnlock := by decide
theorem test_decode_reply : decoded [0x44, 0xA1, 0x07, 0x01, 0x00, 0xE3] = some (.discoveryRpl 7) := by decide
theorem test_decode_ack : decoded [0x33, 0xA1, 0x2A, 0x00, 0xB8] = some (.settingAck 0x2A) := by decide
/-- V-VAL-10: a source that no row has. -/
theorem test_decode_foreign : decoded [0x30, 0xB1, 0x00, 0x01, 0x15, 0x95] = none := by decide
/-- The table's numbering of R71, `command` in bits 39:32; and the `match` of a row whose length is open. -/
theorem test_table_word :
    decodeTableWord 40 0x30B0050213 = some (.evtPinUnlock 5 [0]) ∧
      decodeTableWord 40 0x30B0000009 = some (.evtJam 0 []) ∧
      decodeTableWord 40 0x11A0000000 = some .statusReq := by decide

/-! ### The received frames (spec/95_test_vectors.md, Dispatch) -/

/-- V-DSP-11, V-DSP-10. -/
theorem test_run_pin :
    outputs (.evtPinUnlock 5 [0x07, 0xAA]) = some [.event (.lockActuated .pin (some 7) (some false))] ∧
      outputs (.evtPinUnlock 1 []) = some [.event (.lockActuated .pin none (some false))] := by decide
/-- V-DSP-17. -/
theorem test_run_nfc : outputs (.evtNfcUnlock 1 [2]) = some [.event (.lockActuated .nfc (some 2) (some false))] := by
  decide
/-- V-DSP-13: `payload[1]` is no slot here. -/
theorem test_run_manual : outputs (.evtManualLock 2 [7]) = some [.event (.lockActuated .user none (some true))] := by
  decide
/-- V-DSP-15. -/
theorem test_run_module_unlock :
    outputs (.evtModuleUnlock 1 []) = some [.event (.lockActuated .selfModule none (some false))] := by decide
/-- V-DSP-20. -/
theorem test_run_event_unknown :
    outputs (.evtUnknown 1 []) = some [.diag (.unknownSubcode none), .event (.unknownCommand 0x30 1 0)] := by decide
/-- V-DSP-21. -/
theorem test_run_setting :
    outputs (.settingChg 0x2A [1, 2]) = some (.event .settingChanged :: tx [0x33, 0xA1, 0x2A, 0x00, 0xB8]) := by decide
/-- V-DSP-29. -/
theorem test_run_discovery :
    outputs (.discoveryReq 0xFF []) = some (.event .discoveryRequest :: tx [0x44, 0xA1, 0xFF, 0x01, 0x00, 0x1B]) ∧
      (left (.discoveryReq 0xFF []) State.reset).map State.pollForce = some true := by decide
/-- V-DSP-24. -/
theorem test_run_unknown :
    outputs (.cmdUnknown 0x55 9 [1, 2, 3]) =
      some [.diag (.unknownCommand 0x55 9 3), .event (.unknownCommand 0x55 9 3)] := by decide

/-! ### The operations -/

/-- V-XSUM-5, V-XSUM-3. -/
theorem test_xsum_compute :
    result (.xsumCompute [0x01, 0x02, 0x04, 0x08, 0x10, 0x20, 0x40, 0x80]) = some (.checksum 0xFF) ∧
      result (.xsumCompute []) = some (.checksum 0x00) := by decide
/-- V-XSUM-11, V-XSUM-12. -/
theorem test_xsum_verify :
    result (.xsumVerify [0x00]) = some (.verified true) ∧ result (.xsumVerify [0x5A]) = some (.verified false) := by
  decide
/-- V-VAL-16, V-VAL-8. -/
theorem test_validate :
    result (.validate [0x00, 0x00, 0x00, 0x00]) = some (.verdict (.error .frameTooShort)) ∧
      result (.validate [0x11, 0xB0, 0x00, 0xFC, 0xFF, 0xA2]) = some (.verdict (.error .sizeMismatch)) := by decide
/-- V-VAL-14, V-VAL-15: of two errors the earlier check's is reported. -/
theorem test_validate_order :
    result (.validate [0x11, 0xA0, 0x00, 0x02, 0xFF, 0x4C]) = some (.verdict (.error .sizeMismatch)) ∧
      result (.validate [0x11, 0xA0, 0x00, 0x01, 0xFF, 0x00]) = some (.verdict (.error .checksumMismatch)) := by decide
/-- V-VAL-19, V-VAL-20. -/
theorem test_decode_fields :
    result (.decode [0x30, 0xB0, 0x00, 0x02, 0x13, 0x05, 0x94]) = some (.decoded ⟨0x30, 0xB0, 0x00, [0x13, 0x05]⟩) ∧
      result (.decode [0x37, 0xB0, 0x00, 0x00, 0x87]) = some (.decoded ⟨0x37, 0xB0, 0x00, []⟩) := by decide
/-- L1-A, V-DSP-33. -/
theorem test_dispatch_dropped :
    outputs (.dispatch [0x11, 0xA0, 0x00, 0x00, 0xB1]) = some [.diag (.ignoredSource 0xA0 0x11)] ∧
      outputs (.dispatch [0x11, 0xB0, 0x00, 0x01, 0xFF, 0x5E]) = some [.diag (.checksumMismatch 0x5F 0x5E)] := by decide
/-- V-DSP-23. -/
theorem test_dispatch_discovery :
    outputs (.dispatch [0x44, 0xB0, 0x07, 0x00, 0xF3]) =
      some (.event .discoveryRequest :: tx [0x44, 0xA1, 0x07, 0x01, 0x00, 0xE3]) := by decide
/-- V-ENC-8. -/
theorem test_build_longest :
    result (.build 0x55 0xB0 0x00 (count 35)) = some (.built ([0x55, 0xB0, 0x00, 0x23] ++ count 35 ++ [0xC6])) ∧
      (left (.build 0x55 0xB0 0x00 (count 35)) State.reset).map (fun t => t.txLen.val) = some 40 := by decide
/-- V-ENC-10, V-ENC-11. -/
theorem test_lockreq :
    outputs (.lockReq .lock) = some (tx [0x10, 0xA0, 0x00, 0x01, 0xFF, 0x4E]) ∧
      (left (.lockReq .unlock) (holding [0x11, 0xB0, 0x00] 7)).map (fun t => (t.rxLen.val, t.lastByteTime, t.txLen.val)) =
        some (3, 7, 6) := by decide
/-- V-ENC-9. -/
theorem test_transmit :
    (left (.build 0x11 0xA0 0x00 []) State.reset).bind (fun t => (left .transmit t).map State.trace) =
      some (tx [0x11, 0xA0, 0x00, 0x00, 0xB1]) := by decide
/-- V-SCH-4, V-SCH-6: the forced poll, and the interval across the wrap of the counter. -/
theorem test_sched :
    (left (.schedPoll 5001) { State.reset with discovered := true, lastPoll := 5000, pollForce := true }).map
        (fun t => (t.trace, t.lastPoll, t.pollForce)) = some (tx [0x11, 0xA0, 0x00, 0x00, 0xB1], 5001, false) ∧
      (left (.schedPoll 1734464) { State.reset with discovered := true, lastPoll := 0xFFFF0000 }).map State.trace =
        some [] := by decide
/-- V-ASM-3, V-ASM-4: the silence must be longer than 10 ms. -/
theorem test_poll :
    (left (.poll 110) (holding [0x11, 0xB0] 100)).map (fun t => (t.returned, t.rxLen.val)) = some (.polled none, 2) ∧
      (left (.poll 111) (holding [0x11, 0xB0] 100)).map (fun t => (t.returned, t.rxLen.val)) =
        some (.polled (some [0x11, 0xB0]), 0) := by decide
/-- V-ASM-5 and V-ASM-7 at one byte: the fortieth byte overflows, the thirty-ninth does not. -/
theorem test_feed :
    (left (.feed 0x27 0) (holding (count 39) 0)).map (fun t => (t.trace, t.rxLen.val)) =
        some ([.diag (.frameOverflow 40)], 0) ∧
      (left (.feed 0x27 0) (holding (count 38) 0)).map (fun t => (t.trace, t.rxLen.val)) = some ([], 39) := by decide
/-- The last three bytes of V-ASM-6's first step: the second overflows, the third starts a new raw frame. -/
theorem test_tick_overflow :
    (left (.tick 0 [0x26, 0x27, 0x28]) (holding (count 38) 0)).map (fun t => (t.trace, t.rxLen.val, t.rxBuf.read 0)) =
      some ([.diag (.frameOverflow 40)], 1, 0x28) := by decide
/-- V-ASM-11 (the wrap) with the frame of V-DSP-23, and V-SCH-7's order of acknowledgement and poll. -/
theorem test_tick_delivers :
    (left (.tick 5 []) (holding [0x44, 0xB0, 0x07, 0x00, 0xF3] 0xFFFFFFFA)).map (fun t => (t.trace, t.rxLen.val)) =
      some (.event .discoveryRequest :: tx [0x44, 0xA1, 0x07, 0x01, 0x00, 0xE3] ++
        tx [0x11, 0xA0, 0x00, 0x00, 0xB1], 0) := by decide
/-- V-SCH-10. -/
theorem test_reset :
    (left .reset { holding [0x11, 0xB0, 0x00] 9 with discovered := true, lastPoll := 777, txLen := 6 }).map
        (fun t => (t.rxLen.val, t.lastByteTime, t.discovered, t.lastPoll, t.pollForce, t.txLen.val)) =
      some (0, 0, false, 0, false, 0) := by decide

/-! ### Witnesses: the hypotheses of each statement are met, clause by clause -/

theorem witness_DecodeInvertsEncode :
    (Instr.statusRpt true 0xFF (count 35)).wellFormed = true ∧
      ((Instr.statusRpt true 0xFF (count 35)).isRx || (Instr.statusRpt true 0xFF (count 35)).isTx) = true ∧
      (Instr.settingAck 0xFF).wellFormed = true ∧
      ((Instr.settingAck 0xFF).isRx || (Instr.settingAck 0xFF).isTx) = true := by decide

theorem witness_EncodeInvertsDecode :
    decodeFrame [0x44, 0xB0, 0xFF, 0x00, 0x0B] = .ok (.discoveryReq 0xFF []) ∧
      decodeFrame [0x44, 0xA1, 0xFF, 0x01, 0x00, 0x1B] = .ok (.discoveryRpl 0xFF) := ⟨rfl, rfl⟩

theorem witness_EncodingMatchesTableRow :
    (Instr.evtUnknown 0x01 []).wellFormed = true ∧
      (Instr.evtUnknown 0x01 []).tableRow = some (0x30B0000000, 0xFFFF000000) ∧
      (Instr.evtJam 0x01 (count 34)).wellFormed = true ∧
      (Instr.evtJam 0x01 (count 34)).tableRow = some (0x30B0000009, 0xFFFF0000FF) := by decide

theorem witness_StepRunsThePendingLine :
    State.reset.pending = [] ∧ (asked (.named .reset)).pending = .named .reset :: [] ∧
      (asked (.literal [0x37, 0xB0, 0x00, 0x00, 0x87])).pending = .literal [0x37, 0xB0, 0x00, 0x00, 0x87] :: [] ∧
      decoded [0x37, 0xB0, 0x00, 0x00, 0x87] = some (.configEnter 0 []) ∧
      decodeTableWord 40 0x37B0000000 = some (.configEnter 0 []) := by decide

theorem witness_UndecodableBytesAreDropped :
    (asked (.literal [0x00])).pending = .literal [0x00] :: [] ∧
      decodeFrame [0x00, 0x00, 0x00, 0x00] = .error (.check .frameTooShort) ∧
      decodeFrame [0x11, 0xB0, 0x00, 0x01, 0xFF, 0x5E] = .error (.check .checksumMismatch) ∧
      decodeFrame [0x11, 0xB0, 0x00, 0x02, 0xFF, 0x5C] = .error (.check .sizeMismatch) ∧
      decodeFrame [0x30, 0xB1, 0x00, 0x01, 0x15, 0x95] = .error (.check .ignoredSource) :=
  ⟨rfl, rfl, rfl, rfl, rfl⟩

theorem witness_DecodeTakesTheFields :
    ([0x37, 0xB0, 0x00, 0x00, 0x87] : List Byte).length =
        (([0x37, 0xB0, 0x00, 0x00, 0x87] : List Byte).getD 3 0).toNat + 5 ∧
      ([0x30, 0xB0, 0x00, 0x02, 0x13, 0x05, 0x94] : List Byte).length =
        (([0x30, 0xB0, 0x00, 0x02, 0x13, 0x05, 0x94] : List Byte).getD 3 0).toNat + 5 := by decide

/-- For DecodeInvertsBuild, BuiltFramesAreValidButForTheSource, BuildStoresTheFrame,
TransmitAfterBuildSendsTheBuiltBytes and, the last part, BuildRefusesOverlongPayload. -/
theorem witness_BuildStoresTheFrame :
    ([] : List Byte).length ≤ 35 ∧ (count 35).length ≤ 35 ∧ 35 < (count 36).length := by decide

theorem witness_DecodeOfAnyBytesCompletes :
    ([0x11, 0xB0, 0x07, 0x01] : List Byte)[0]? = some 0x11 ∧ ([0x11, 0xB0, 0x07, 0x01] : List Byte)[1]? = some 0xB0 ∧
      ([0x11, 0xB0, 0x07, 0x01] : List Byte)[2]? = some 0x07 ∧ ([0x11, 0xB0, 0x07, 0x01] : List Byte)[3]? = some 0x01 ∧
      0 < (0x01 : Byte).toNat ∧ ([0x11, 0xB0, 0x07, 0x01, 0xFF] : List Byte)[4 + 0]? = some 0xFF := by decide

theorem witness_EchoOfASentFrameIsIgnored :
    Sendable [0x11, 0xA0, 0x00, 0x00, 0xB1] ∧ Sendable [0x33, 0xA1, 0xFF, 0x00, 0x6D] :=
  ⟨.inr (.inr (.inl rfl)), .inr (.inr (.inr (.inl ⟨0xFF, rfl⟩)))⟩

theorem witness_StatusReportTellsTheLockState : (0xFE : Byte) ≠ 0xFF ∧ (0xFE : Byte) ≠ 0x00 := by decide

theorem witness_DispatchRunsTheDecodedFrame :
    decodeFrame [0x30, 0xB0, 0x00, 0x02, 0x13, 0x05, 0x94] = .ok (.evtPinUnlock 0 [5]) ∧
      (Instr.evtPinUnlock 0 [5]).isRx = true ∧
      decodeFrame [0x11, 0xB1, 0x00, 0x01, 0xFF, 0x5E] = .ok (.statusRpt true 0 [0xFF]) ∧
      (Instr.statusRpt true 0 [0xFF]).isRx = true := ⟨rfl, rfl, rfl, rfl⟩

theorem witness_InvalidFrameIsDropped :
    result (.validate []) = some (.verdict (.error .frameTooShort)) ∧
      result (.validate [0x11, 0xB0, 0x00, 0x01, 0xFF, 0x5E]) = some (.verdict (.error .checksumMismatch)) ∧
      result (.validate [0x11, 0xB0, 0x00, 0x00, 0xFF, 0x5E]) = some (.verdict (.error .sizeMismatch)) ∧
      result (.validate [0x11, 0xB2, 0x00, 0x01, 0xFF, 0x5D]) = some (.verdict (.error .ignoredSource)) := by decide

theorem witness_AnyOneCorruptedByteIsCaught :
    5 ≤ ([0x11, 0xB0, 0x00, 0x01, 0xFF, 0x5F] : List Byte).length ∧
      verifyXsum [0x11, 0xB0, 0x00, 0x01, 0xFF, 0x5F] = true ∧
      5 < ([0x11, 0xB0, 0x00, 0x01, 0xFF, 0x5F] : List Byte).length ∧
      (0x5E : Byte) ≠ ([0x11, 0xB0, 0x00, 0x01, 0xFF, 0x5F] : List Byte).getD 5 0 := by decide

/-- P6's two frames. -/
theorem witness_MergedFramesFailTheSizeCheck :
    verifyXsum [0x30, 0xB0, 0x01, 0x01, 0x15, 0x95] = true ∧
      ([0x30, 0xB0, 0x01, 0x01, 0x15, 0x95] : List Byte).length =
        (([0x30, 0xB0, 0x01, 0x01, 0x15, 0x95] : List Byte).getD 3 0).toNat + 5 ∧
      verifyXsum [0x11, 0xB0, 0x02, 0x01, 0xFF, 0x5D] = true ∧
      ([0x11, 0xB0, 0x02, 0x01, 0xFF, 0x5D] : List Byte).length =
        (([0x11, 0xB0, 0x02, 0x01, 0xFF, 0x5D] : List Byte).getD 3 0).toNat + 5 := by decide

theorem witness_StrictPrefixIsDropped :
    ([0x37, 0xB0, 0x00, 0x00, 0x87] : List Byte).length =
        (([0x37, 0xB0, 0x00, 0x00, 0x87] : List Byte).getD 3 0).toNat + 5 ∧
      4 < ([0x37, 0xB0, 0x00, 0x00, 0x87] : List Byte).length := by decide

theorem witness_FeedStoresTheByte : (holding (count 38) 0).rxLen.val ≠ 39 ∧ State.reset.rxLen.val ≠ 39 := by decide

theorem witness_FortiethByteOverflows : (holding (count 39) 0).rxLen.val = 39 := by decide

theorem witness_PollDeliversAfterTheSilence :
    0 < (holding [0x11] 100).rxLen.val ∧ 10 < ((111 : Time) - (holding [0x11] 100).lastByteTime).toNat ∧
      ((110 : Time) - (holding [0x11] 100).lastByteTime).toNat ≤ 10 ∧ State.reset.rxLen.val = 0 := by decide

theorem witness_BytesOverflowByForties :
    ([0x00] : List Byte) ≠ [] ∧ State.reset.discovered = false ∧
      min 40 (State.reset.rxLen.val + ([0x00] : List Byte).length) ≤ 1 ∧
      min 40 ((holding (count 39) 0).rxLen.val + ([0x00, 0x01] : List Byte).length) ≤ 40 := by decide

/-- Both branches: the poll timer of a discovered block due and, one millisecond earlier, not due. -/
theorem witness_TickWithBytesDeliversNoFrame :
    ([0x00] : List Byte) ≠ [] ∧ ({ State.reset with discovered := true } : State).discovered = true ∧
      1800000 < ((1800001 : Time) - ({ State.reset with discovered := true } : State).lastPoll).toNat ∧
      ¬ 1800000 < ((1800000 : Time) - ({ State.reset with discovered := true } : State).lastPoll).toNat := by decide

/-- The bytes 37 B0 and 00 00 87 in two TICKs, 5 ms apart, and the TICK that delivers them. -/
theorem witness_SilenceDeliversExactlyTheBytesFed :
    State.reset.rxLen.val = 0 ∧
      (∀ c ∈ [((0 : Time), ([0x37, 0xB0] : List Byte))] ++ [((5 : Time), ([0x00, 0x00, 0x87] : List Byte))], c.2 ≠ []) ∧
      ((([((0 : Time), ([0x37, 0xB0] : List Byte))] ++
        [((5 : Time), ([0x00, 0x00, 0x87] : List Byte))]).map Prod.snd).flatten).length ≤ 39 ∧
      10 < ((16 : Time) - 5).toNat ∧
      ({ State.reset with
          pending := [.named (.tick 0 [0x37, 0xB0]), .named (.tick 5 [0x00, 0x00, 0x87]), .named (.tick 16 [])] } :
            State).pending =
        ([((0 : Time), ([0x37, 0xB0] : List Byte))] ++ [((5 : Time), ([0x00, 0x00, 0x87] : List Byte))]).map
          (fun c => Line.named (.tick c.1 c.2)) ++ .named (.tick 16 []) :: [] := by decide

theorem witness_StatusRequestIsSentExactlyWhenDue :
    ({ State.reset with discovered := true } : State).discovered = true ∧
      1800000 < ((1800001 : Time) - State.reset.lastPoll).toNat ∧
      ({ State.reset with pollForce := true } : State).pollForce = true ∧
      State.reset.pollForce = false ∧ ((1800000 : Time) - State.reset.lastPoll).toNat ≤ 1800000 ∧
      State.reset.discovered = false := by decide

theorem witness_UndiscoveredTickIsSilent :
    exec (.tick 5 []) State.reset = .next State.reset ∧ State.reset.discovered = false := ⟨rfl, rfl⟩

theorem witness_DiscoveryTickSendsReplyThenStatusRequest :
    (List.range (holding [0x44, 0xB0, 0x07, 0x00, 0xF3] 1004).rxLen.val).map
        (holding [0x44, 0xB0, 0x07, 0x00, 0xF3] 1004).rxBuf.read = encode (.discoveryReq 0x07 []) ∧
      10 < ((1015 : Time) - (holding [0x44, 0xB0, 0x07, 0x00, 0xF3] 1004).lastByteTime).toNat := by decide

/-- Also for OnlyTheOwnersWriteState and OutputsAreNeverReadBack. -/
theorem witness_OnlyValidatedFramesSetDiscovered :
    exec .reset State.reset = .next State.reset ∧ State.reset.discovered = false ∧
      (left (.dispatch [0x37, 0xB0, 0x00, 0x00, 0x87]) State.reset).map State.discovered = some true :=
  ⟨rfl, rfl, by decide⟩

/-- Also for BoundaryInvariantIsKept and OnlyListedFramesReachTheLink. -/
theorem witness_EveryStepKeepsTheBuffers :
    buffersOk (asked (.named .reset)) = true ∧ txFrameOk (asked (.named .reset)) = true ∧
      boundaryOk (asked (.named .reset)) = true ∧ externalOnly (asked (.named .reset)) = true ∧
      step (asked (.named .reset)) = .next State.reset := ⟨by decide, by decide, by decide, by decide, rfl⟩

end Sys2Proof.Tests
end

section
/-! The frame assembler: what POLL delivers and what it leaves unchanged (spec/41_frame_assembler.md R102). -/

namespace Sys2Proof.Proofs

open Sys2Proof Sys2Proof.Machine Sys2Proof.Laws

/-- The bytes held are those at the addresses below `rx_len`, in order. -/
theorem heldBytes_eq_map_read (s : State) :
    heldBytes s = (List.range s.rxLen.val).map s.rxBuf.read := by
  simp only [heldBytes, Memory.readBytes, Nat.zero_add]

/-- When the RX idle timer has not expired: the complement of `frameDue_iff`. -/
theorem frameDue_eq_false_iff (now : Time) (s : State) :
    frameDue now s = false ↔ s.rxLen.val = 0 ∨ (now - s.lastByteTime).toNat ≤ 10 := by
  rw [← Bool.not_eq_true, frameDue_iff]
  omega

theorem exec_poll (now : Time) (s : State) :
    exec (.poll now) s = .next (giveBack (.polled (poll now s).1) (poll now s).2) := rfl

/-- With the idle timer expired, POLL gives back the bytes held and only empties the buffer. -/
theorem exec_poll_of_frameDue {now : Time} {s : State} (due : frameDue now s = true) :
    exec (.poll now) s = .next { s with rxLen := 0, returned := .polled (some (heldBytes s)) } := by
  rcases poll_cases now s with ⟨-, delivers⟩ | ⟨notDue, -⟩
  · rw [exec_poll, delivers, giveBack]
  · simp [due] at notDue

/-- With the idle timer running, POLL gives back nothing and leaves the block as it was. -/
theorem exec_poll_of_not_frameDue {now : Time} {s : State} (notDue : frameDue now s = false) :
    exec (.poll now) s = .next { s with returned := .polled none } := by
  rcases poll_cases now s with ⟨due, -⟩ | ⟨-, idle⟩
  · simp [notDue] at due
  · rw [exec_poll, idle, giveBack]

/-- Settles O40: the two clauses are the two values of `frameDue`. -/
theorem pollDeliversAfterTheSilence : Obligations.PollDeliversAfterTheSilence := by
  intro now s
  refine ⟨fun held silent => ?_, fun quiet => ?_⟩
  · rw [← heldBytes_eq_map_read]
    exact exec_poll_of_frameDue ((frameDue_iff now s).2 ⟨held, silent⟩)
  · exact exec_poll_of_not_frameDue ((frameDue_eq_false_iff now s).2 quiet)

end Sys2Proof.Proofs
end

section
/-! The validator: its four checks over any bytes, and VALIDATE as an instruction
(spec/42_frame_validate.md R121 to R125). -/

namespace Sys2Proof.Proofs

open Sys2Proof Sys2Proof.Machine

/-- Inside the sequence the free value of entry 21 plays no part. -/
theorem rawByte_eq_getD {f : List Byte} {i : Nat} (inside : i < f.length) (d : Byte) :
    rawByte f i = f.getD i d := by
  rw [rawByte, List.getD_eq_getElem _ _ inside, List.getD_eq_getElem _ _ inside]

/-- XSUM.VERIFY of a non-empty sequence, said by indices as in R123. -/
theorem verifyXsum_iff_getD {f : List Byte} (nonempty : f ≠ []) :
    verifyXsum f = true ↔ xsum (f.take (f.length - 1)) = f.getD (f.length - 1) 0 := by
  have last : f.length - 1 < f.length := by
    have := List.length_pos_of_ne_nil nonempty
    omega
  rw [verifyXsum, List.getLast?_eq_getElem?, List.getElem?_eq_getElem last,
    List.getD_eq_getElem _ _ last, List.dropLast_eq_take]
  exact beq_iff_eq

/-- The source filter in R125's words: 0xB0 for any command, 0xB1 for command 0x11 only. -/
theorem sourceAccepted_iff (command source : Byte) :
    sourceAccepted command source = true ↔ source = 0xB0 ∨ (source = 0xB1 ∧ command = 0x11) := by
  simp only [sourceAccepted, Bool.or_eq_true, Bool.and_eq_true, beq_iff_eq]

/-- Of a sequence shorter than 5 bytes nothing but the length is looked at (R122). -/
theorem validateFrame_of_short {f : List Byte} (short : f.length < 5) :
    validateFrame f = .error .frameTooShort :=
  if_pos (Nat.not_le.2 short)

/-- Checks 2 to 4 of a sequence that has all the bytes they read (R123 to R125). -/
theorem validateFrame_of_long {f : List Byte} (long : 5 ≤ f.length) :
    validateFrame f =
      if xsum (f.take (f.length - 1)) ≠ f.getD (f.length - 1) 0 then .error .checksumMismatch
      else if f.length ≠ (f.getD 3 0).toNat + 5 then .error .sizeMismatch
      else if f.getD 1 0 = 0xB0 ∨ (f.getD 1 0 = 0xB1 ∧ f.getD 0 0 = 0x11) then .ok
      else .error .ignoredSource := by
  have nonempty : f ≠ [] := List.ne_nil_of_length_pos (by omega)
  have passesLength : ¬ ¬ (Config.minFrame ≤ f.length) := not_not_intro long
  rw [validateFrame, if_neg passesLength]
  simp only [verifyXsum_iff_getD nonempty, sourceAccepted_iff, ne_eq, Config.overhead,
    rawByte_eq_getD (show 0 < f.length by omega) 0, rawByte_eq_getD (show 1 < f.length by omega) 0,
    rawByte_eq_getD (show 3 < f.length by omega) 0, ite_not]

theorem exec_validate (f : List Byte) (s : State) :
    exec (.validate f) s = .next { s with returned := .verdict (validateFrame f) } := rfl

/-- Settles O10: check 1 decides, or the sequence has the bytes that checks 2 to 4 read. -/
theorem validateMakesFourChecksInOrder : Obligations.ValidateMakesFourChecksInOrder := by
  intro f s
  rw [exec_validate]
  by_cases short : f.length < 5
  · rw [validateFrame_of_short short, if_pos short]
  · rw [validateFrame_of_long (Nat.not_lt.1 short), if_neg short]

end Sys2Proof.Proofs
end

section
/-! The received frames that send no reply: their bytes, and all they do (spec/43_dispatch.md R141, R143, R152,
R155). -/

namespace Sys2Proof.Proofs

open Sys2Proof Sys2Proof.Machine

/-! ### The bytes of a received frame -/

/-- A row of format FRAME is encoded as the frame it stands for. -/
theorem encode_of_frame? {i : Instr} {fr : Frame} (h : i.frame? = some fr) : encode i = frameBytes fr := by
  rw [encode, h]

/-- With a sub-code the payload is not empty: its first byte stands fifth in the frame, and LL counts it (R65). -/
theorem frameBytes_of_subcode (command source sequence sub : Byte) (rest : List Byte) :
    frameBytes ⟨command, source, sequence, sub :: rest⟩ =
      [command, source, sequence, BitVec.ofNat 8 (1 + rest.length), sub] ++ rest ++
        [xsum ([command, source, sequence, BitVec.ofNat 8 (1 + rest.length), sub] ++ rest)] := by
  rw [frameBytes, List.length_cons, Nat.add_comm rest.length 1]
  rfl

/-! ### Effects -/

/-- A rule that asks for no reply and no forced poll only marks the peripheral discovered and emits its notices. -/
theorem perform_of_notices_only {r : Result} (noReply : r.reply = none) (noForce : r.force = false) (s : State) :
    perform r s = { s with discovered := true, trace := s.trace ++ r.notices } := by
  rw [perform, noReply, noForce]
  rfl

theorem exec_evtLowBattery (sequence : Byte) (rest : List Byte) (s : State) :
    exec (.evtLowBattery sequence rest) s = .next (perform lowBatteryEvent s) := rfl

theorem exec_configEnter (sequence : Byte) (payload : List Byte) (s : State) :
    exec (.configEnter sequence payload) s = .next (perform configEntered s) := rfl

/-- Settles O24: the rule of R152 asks for its event alone. -/
theorem lowBatteryEmitsItsOwnEvent : Obligations.LowBatteryEmitsItsOwnEvent := by
  intro sequence rest s
  refine ⟨?_, ?_⟩
  · rw [encode_of_frame? rfl, frameBytes_of_subcode]
  · rw [exec_evtLowBattery, perform_of_notices_only rfl rfl]
    rfl

/-- Settles O28: the rule of R155 asks for its notice alone. -/
theorem configEnterOnlyNotifies : Obligations.ConfigEnterOnlyNotifies := by
  intro sequence payload s
  refine ⟨?_, ?_⟩
  · rw [encode_of_frame? rfl, frameBytes]
  · rw [exec_configEnter, perform_of_notices_only rfl rfl]
    rfl

end Sys2Proof.Proofs
end

section
/-! The encoder: what BUILD stores and gives back, what TRANSMIT sends, and what both leave unchanged
(spec/44_encode_transmit.md R170, R172). -/

namespace Sys2Proof.Proofs

open Sys2Proof Sys2Proof.Machine Sys2Proof.Laws

/-! ### BUILD -/

/-- A payload the format can carry is in the domain of BUILD, which gives the stored bytes back. -/
theorem exec_build_of_fits (o : OutFrame) (s : State) :
    exec (.build o.command o.source o.sequence o.payload) s =
      .next (giveBack (.built (frameBytes o.frame)) (build o s)) :=
  dif_pos o.fits

/-- From address 0 the register holds the frame, and above it what it held before. -/
theorem read_build_txBuf (o : OutFrame) (s : State) (k : Nat) :
    (build o s).txBuf.read k = (frameBytes o.frame).getD k (s.txBuf.read k) := by
  rw [build_txBuf, read_writeBytes, if_pos (Nat.zero_le k), Nat.sub_zero]

/-- BUILD writes no field but the outgoing frame register and its length. -/
theorem build_frame (o : OutFrame) (s : State) :
    { build o s with txBuf := s.txBuf, txLen := s.txLen } = s := rfl

/-- The operands of BUILD in its domain are those of a frame to send. -/
theorem exists_outFrame (command source sequence : Byte) {payload : List Byte} (fits : payload.length ≤ 35) :
    ∃ o : OutFrame, o.command = command ∧ o.source = source ∧ o.sequence = sequence ∧ o.payload = payload :=
  ⟨⟨command, source, sequence, payload, fits⟩, rfl, rfl, rfl, rfl⟩

/-- Settles O15: the operands make a frame to send, and BUILD's effect is taken field by field. -/
theorem buildStoresTheFrame : Obligations.BuildStoresTheFrame := by
  intro command source sequence payload s fits
  obtain ⟨o, rfl, rfl, rfl, rfl⟩ := exists_outFrame command source sequence fits
  refine ⟨giveBack (.built (frameBytes o.frame)) (build o s), _, frameBytes o.frame,
    exec_build_of_fits o s, rfl, rfl, giveBack_returned _ _, ?length, ?bytes, ?unchanged⟩
  case length => rw [giveBack_txLen, build_txLen]
  case bytes =>
    intro k
    rw [giveBack_txBuf, read_build_txBuf]
  case unchanged => exact build_frame o s

/-! ### TRANSMIT -/

theorem exec_transmit (s : State) : exec .transmit s = .next (transmit s) := rfl

/-- The outputs of a transmission, by the addresses the bytes are read from. -/
theorem sendOutputs_readBytes (m : Memory) (n : Nat) :
    sendOutputs (m.readBytes 0 n) =
      [.wake .asserted, .wake .deasserted] ++ (List.range n).map fun k => .txByte (m.read k) := by
  simp [sendOutputs, Memory.readBytes]

/-- Settles O17: TRANSMIT only emits, and its outputs are those of the addresses below `tx_len`. -/
theorem transmitSendsTheHeldFrame : Obligations.TransmitSendsTheHeldFrame := by
  intro s
  rw [exec_transmit, transmit, sendOutputs_readBytes, emit]

end Sys2Proof.Proofs
end

section
/-! The checksum codec: the XOR-fold of a sequence, and when its last byte is right (spec/40_checksum.md R90 to
R92). -/

namespace Sys2Proof.Proofs

open Sys2Proof Sys2Proof.Machine

/-! ### The fold -/

@[simp] theorem xsum_nil : xsum [] = 0 := rfl

theorem xsum_concat (bytes : List Byte) (b : Byte) : xsum (bytes ++ [b]) = xsum bytes ^^^ b := by
  simp [xsum]

theorem xsum_append (a b : List Byte) : xsum (a ++ b) = xsum a ^^^ xsum b := by
  induction b using List.reverseRecOn with
  | nil => simp
  | append_singleton b x ih => rw [← List.append_assoc, xsum_concat, xsum_concat, ih, BitVec.xor_assoc]

theorem xsum_cons (b : Byte) (bytes : List Byte) : xsum (b :: bytes) = b ^^^ xsum bytes := by
  have single : xsum [b] = b := by simp [xsum]
  rw [← List.singleton_append, xsum_append, single]

/-- Bit `k` of the checksum is the parity of bit `k` of the bytes (R92). -/
theorem getLsbD_xsum (bytes : List Byte) (k : Nat) :
    (xsum bytes).getLsbD k = decide ((bytes.countP fun b => b.getLsbD k) % 2 = 1) := by
  induction bytes using List.reverseRecOn with
  | nil => simp
  | append_singleton bytes x ih =>
    rw [xsum_concat, BitVec.getLsbD_xor, ih, List.countP_append, List.countP_singleton]
    rcases Nat.mod_two_eq_zero_or_one (bytes.countP fun b => b.getLsbD k) with h | h <;>
      cases x.getLsbD k <;> simp [Nat.add_mod, h]

/-- Replacing one byte changes the checksum by what it changes in that byte. -/
theorem xsum_set {f : List Byte} {k : Nat} (inside : k < f.length) (b : Byte) :
    xsum (f.set k b) = xsum f ^^^ (f.getD k 0 ^^^ b) := by
  induction f generalizing k with
  | nil => simp at inside
  | cons x f ih =>
    cases k with
    | zero =>
      rw [List.set_cons_zero, xsum_cons, xsum_cons, List.getD_cons_zero, BitVec.xor_comm x, BitVec.xor_assoc,
        ← BitVec.xor_assoc x, BitVec.xor_self, BitVec.zero_xor, BitVec.xor_comm]
    | succ k =>
      rw [List.set_cons_succ, xsum_cons, xsum_cons, ih (by simpa using inside), List.getD_cons_succ,
        BitVec.xor_assoc]

/-! ### The checksum byte -/

theorem verifyXsum_concat (body : List Byte) (trailer : Byte) :
    verifyXsum (body ++ [trailer]) = decide (xsum body = trailer) := by
  rw [verifyXsum, List.getLast?_concat, List.dropLast_concat]
  rfl

/-- The last byte is right exactly when the XOR of the whole is 0 (R91). -/
theorem xsum_concat_eq_zero_iff (body : List Byte) (trailer : Byte) :
    xsum (body ++ [trailer]) = 0 ↔ xsum body = trailer := by
  rw [xsum_concat]
  exact BitVec.xor_eq_zero_iff

theorem verifyXsum_iff_xsum_eq_zero {f : List Byte} (nonempty : f ≠ []) :
    verifyXsum f = true ↔ xsum f = 0 := by
  rw [← List.dropLast_concat_getLast nonempty, verifyXsum_concat, decide_eq_true_iff, xsum_concat_eq_zero_iff]

/-! ### The operations -/

theorem exec_xsumCompute (bytes : List Byte) (s : State) :
    exec (.xsumCompute bytes) s = .next { s with returned := .checksum (xsum bytes) } := rfl

theorem exec_xsumVerify (frame : List Byte) (s : State) :
    exec (.xsumVerify frame) s = .next { s with returned := .verified (verifyXsum frame) } := rfl

/-- Settles O8: the byte is the fold of all the bytes. -/
theorem xsumComputeIsBitwiseParity : Obligations.XsumComputeIsBitwiseParity :=
  fun bytes s => ⟨xsum bytes, exec_xsumCompute bytes s, fun k _ => getLsbD_xsum bytes k⟩

/-- Settles O9: both forms of the comparison are `verifyXsum`. -/
theorem xsumVerifyMeansWholeXorIsZero : Obligations.XsumVerifyMeansWholeXorIsZero := by
  intro s
  refine ⟨exec_xsumVerify [] s, fun body trailer => ?_⟩
  have same : decide (xsum (body ++ [trailer]) = 0x00) = decide (xsum body = trailer) :=
    decide_eq_decide.2 (xsum_concat_eq_zero_iff body trailer)
  rw [exec_xsumVerify, verifyXsum_concat, same]
  exact ⟨rfl, rfl⟩

end Sys2Proof.Proofs
end

section
/-! Frames as bytes: a sequence with a right length and checksum is the bytes of exactly one frame, and VALIDATE
and DECODE read that frame (spec/42_frame_validate.md R120 to R126). -/

namespace Sys2Proof.Proofs

open Sys2Proof Sys2Proof.Machine Sys2Proof.Laws

/-! ### The bytes of a frame -/

/-- The bytes that the checksum of a frame covers: header and payload (R170). -/
def frameBody (fr : Frame) : List Byte :=
  [fr.command, fr.source, fr.sequence, BitVec.ofNat 8 fr.payload.length] ++ fr.payload

theorem frameBytes_eq_body (fr : Frame) : frameBytes fr = frameBody fr ++ [xsum (frameBody fr)] := rfl

/-- The sequence is as long as its length byte says, and its last byte is its checksum (checks 1 to 3). -/
structure Intact (f : List Byte) : Prop where
  checksum : verifyXsum f = true
  length : f.length = (f.getD 3 0).toNat + 5

/-- A payload that the length byte can count. -/
def Countable (fr : Frame) : Prop := fr.payload.length < 256

theorem Countable.of_fits {fr : Frame} (fits : fr.payload.length ≤ Config.payloadMax) : Countable fr :=
  lt_of_le_of_lt fits (by decide)

theorem Countable.toNat_length {fr : Frame} (h : Countable fr) :
    (BitVec.ofNat 8 fr.payload.length : Byte).toNat = fr.payload.length := by
  rw [BitVec.toNat_ofNat]
  exact Nat.mod_eq_of_lt h

theorem intact_frameBytes {fr : Frame} (h : Countable fr) : Intact (frameBytes fr) where
  checksum := by rw [frameBytes_eq_body, verifyXsum_concat, decide_eq_true rfl]
  length := by
    rw [length_frameBytes, Nat.add_comm]
    exact congrArg (· + 5) h.toNat_length.symm

/-- The four header bytes, the payload and the last byte of a sequence as long as it declares. -/
theorem exists_fields_of_length {f : List Byte} (h : f.length = (f.getD 3 0).toNat + 5) :
    ∃ (fr : Frame) (trailer : Byte), Countable fr ∧ f = frameBody fr ++ [trailer] := by
  match f, h with
  | [], h => simp at h
  | [_], h => simp at h
  | [_, _], h => simp at h
  | [_, _, _], h => simp at h
  | command :: source :: sequence :: len :: rest, h =>
    have restLength : rest.length = len.toNat + 1 := by simpa using h
    obtain ⟨payload, trailer, rfl⟩ := List.eq_nil_or_concat' rest |>.resolve_left (by rintro rfl; simp at restLength)
    have counted : payload.length = len.toNat := by simpa using restLength
    refine ⟨⟨command, source, sequence, payload⟩, trailer, ?_, ?_⟩
    · rw [Countable, counted]
      exact len.isLt
    · simp [frameBody, counted]

/-- An intact sequence is the bytes of a frame. -/
theorem Intact.exists_frame {f : List Byte} (h : Intact f) : ∃ fr, Countable fr ∧ f = frameBytes fr := by
  obtain ⟨fr, trailer, countable, rfl⟩ := exists_fields_of_length h.length
  have right : xsum (frameBody fr) = trailer := by simpa [verifyXsum_concat] using h.checksum
  exact ⟨fr, countable, by rw [frameBytes_eq_body, right]⟩

/-! ### DECODE -/

theorem exec_decode (f : List Byte) (s : State) :
    exec (.decode f) s = .next { s with returned := .decoded (decodeFields f) } := rfl

/-- Byte `k` of the payload that DECODE reads is byte `4 + k` of the sequence. -/
theorem getElem?_decodeFields_payload {f : List Byte} {k : Nat} (h : k < (rawByte f 3).toNat) :
    (decodeFields f).payload[k]? = some (rawByte f (4 + k)) := by
  simp [decodeFields, h]

theorem length_decodeFields_payload (f : List Byte) :
    (decodeFields f).payload.length = (rawByte f 3).toNat := by
  simp [decodeFields]

/-- A byte that exists is read whatever the free value of entry 21 is. -/
theorem rawByte_of_getElem? {f : List Byte} {i : Nat} {b : Byte} (h : f[i]? = some b) : rawByte f i = b := by
  rw [rawByte, List.getD_eq_getElem?_getD, h, Option.getD_some]

/-- DECODE takes the four fields of a sequence as long as it declares, whatever its last byte is. -/
theorem decodeFields_body_concat {fr : Frame} (h : Countable fr) (trailer : Byte) :
    decodeFields (frameBody fr ++ [trailer]) = fr := by
  have payload : (decodeFields (frameBody fr ++ [trailer])).payload = fr.payload := by
    have length : (decodeFields (frameBody fr ++ [trailer])).payload.length = fr.payload.length := by
      rw [length_decodeFields_payload]
      exact h.toNat_length
    refine List.ext_getElem? fun k => ?_
    by_cases inside : k < fr.payload.length
    · rw [getElem?_decodeFields_payload (by rwa [← length_decodeFields_payload, length])]
      have byte : (frameBody fr ++ [trailer])[4 + k]? = fr.payload[k]? := by
        simp [frameBody, Nat.add_comm 4 k, List.getElem?_append_left inside]
      rw [List.getElem?_eq_getElem inside] at byte ⊢
      rw [rawByte_of_getElem? byte]
    · rw [List.getElem?_eq_none (by omega), List.getElem?_eq_none (by omega)]
  calc decodeFields (frameBody fr ++ [trailer])
      = ⟨fr.command, fr.source, fr.sequence, (decodeFields (frameBody fr ++ [trailer])).payload⟩ := rfl
    _ = fr := by rw [payload]

theorem decodeFields_frameBytes {fr : Frame} (h : Countable fr) : decodeFields (frameBytes fr) = fr :=
  decodeFields_body_concat h _

/-- Settles O11: such a sequence is the body of a frame and one more byte. -/
theorem decodeTakesTheFields : Obligations.DecodeTakesTheFields := by
  intro f s asDeclared
  obtain ⟨fr, trailer, countable, rfl⟩ := exists_fields_of_length asDeclared
  rw [exec_decode, decodeFields_body_concat countable]
  simp [frameBody]

/-- Settles O12: every byte DECODE reads is `rawByte` of its index. -/
theorem decodeOfAnyBytesCompletes : Obligations.DecodeOfAnyBytesCompletes := by
  intro f s
  refine ⟨decodeFields f, exec_decode f s, fun b h => rawByte_of_getElem? h, fun b h => rawByte_of_getElem? h,
    fun b h => rawByte_of_getElem? h, fun len hlen => ⟨?length, fun k b inside hb => ?byte⟩⟩
  case length => rw [length_decodeFields_payload, rawByte_of_getElem? hlen]
  case byte =>
    rw [getElem?_decodeFields_payload (by rwa [rawByte_of_getElem? hlen]), rawByte_of_getElem? hb]

/-- Settles O13: what is built has a payload that the length byte counts. -/
theorem decodeInvertsBuild : Obligations.DecodeInvertsBuild := by
  intro command source sequence payload s fits
  obtain ⟨o, rfl, rfl, rfl, rfl⟩ := exists_outFrame command source sequence fits
  refine ⟨_, frameBytes o.frame, exec_build_of_fits o s, giveBack_returned _ _, ?_⟩
  rw [exec_decode, decodeFields_frameBytes (Countable.of_fits o.fits)]
  rfl

/-! ### VALIDATE -/

/-- Check 2 decides on a sequence of at least 5 bytes whose last byte is wrong (R123). -/
theorem validateFrame_of_wrong_checksum {f : List Byte} (long : 5 ≤ f.length) (wrong : verifyXsum f ≠ true) :
    validateFrame f = .error .checksumMismatch := by
  have nonempty : f ≠ [] := List.ne_nil_of_length_pos (by omega)
  rw [validateFrame_of_long long, if_pos (mt (verifyXsum_iff_getD nonempty).2 wrong)]

/-- Check 3 decides when the last byte is right and the length byte is not (R124). -/
theorem validateFrame_of_wrong_length {f : List Byte} (long : 5 ≤ f.length) (right : verifyXsum f = true)
    (wrong : f.length ≠ (f.getD 3 0).toNat + 5) : validateFrame f = .error .sizeMismatch := by
  have nonempty : f ≠ [] := List.ne_nil_of_length_pos (by omega)
  rw [validateFrame_of_long long, if_neg (not_not_intro ((verifyXsum_iff_getD nonempty).1 right)), if_pos wrong]

/-- Check 4, the source filter, decides on an intact sequence (R125). -/
theorem validateFrame_of_intact {f : List Byte} (h : Intact f) :
    validateFrame f =
      if sourceAccepted (f.getD 0 0) (f.getD 1 0) = true then .ok else .error .ignoredSource := by
  have long : 5 ≤ f.length := by
    have := h.length
    omega
  have nonempty : f ≠ [] := List.ne_nil_of_length_pos (by omega)
  rw [validateFrame_of_long long, if_neg (not_not_intro ((verifyXsum_iff_getD nonempty).1 h.checksum)),
    if_neg (not_not_intro h.length)]
  simp only [sourceAccepted_iff]

/-- The first three checks stop every sequence that is not intact. -/
theorem intact_of_validateFrame {f : List Byte}
    (h : validateFrame f = .ok ∨ validateFrame f = .error .ignoredSource) : Intact f := by
  by_cases short : f.length < 5
  · simp [validateFrame_of_short short] at h
  have long : 5 ≤ f.length := Nat.not_lt.1 short
  by_cases sum : verifyXsum f = true
  · by_cases length : f.length = (f.getD 3 0).toNat + 5
    · exact ⟨sum, length⟩
    · simp [validateFrame_of_wrong_length long sum length] at h
  · simp [validateFrame_of_wrong_checksum long sum] at h

theorem validateFrame_frameBytes {fr : Frame} (h : Countable fr) :
    validateFrame (frameBytes fr) =
      if sourceAccepted fr.command fr.source = true then .ok else .error .ignoredSource :=
  validateFrame_of_intact (intact_frameBytes h)

/-- Settles O14: the verdict on built bytes, with the source filter in R125's words. -/
theorem builtFramesAreValidButForTheSource : Obligations.BuiltFramesAreValidButForTheSource := by
  intro command source sequence payload s fits
  obtain ⟨o, rfl, rfl, rfl, rfl⟩ := exists_outFrame command source sequence fits
  refine ⟨_, frameBytes o.frame, exec_build_of_fits o s, giveBack_returned _ _, ?_⟩
  rw [exec_validate, validateFrame_frameBytes (Countable.of_fits o.fits)]
  simp only [sourceAccepted_iff]
  rfl

end Sys2Proof.Proofs
end

section
/-! The decoder and the encoder of table rows: which row a frame selects, and that the two are inverse to each
other (spec/30_encoding.md R60 to R71). -/

namespace Sys2Proof.Proofs

open Sys2Proof Sys2Proof.Machine

/-! ### The row a received frame selects -/

/-- The row that a lock event selects is encoded as that lock event. -/
theorem frame?_selectEvent (sequence : Byte) (payload : List Byte) :
    (selectEvent sequence payload).frame? = some ⟨Config.cmdEvent, Config.srcPeriph, sequence, payload⟩ := by
  cases payload with
  | nil => rfl
  | cons sub rest =>
    rw [selectEvent]
    split_ifs with jam pin manual moduleLock moduleUnlock timeout nfc battery
    case neg => rfl
    all_goals subst sub; rfl

theorem wellFormed_selectEvent (sequence : Byte) {payload : List Byte}
    (fits : payload.length ≤ Config.payloadMax) : (selectEvent sequence payload).wellFormed = true := by
  cases payload with
  | nil => rfl
  | cons sub rest =>
    rw [selectEvent]
    split_ifs with jam pin manual moduleLock moduleUnlock timeout nfc battery
    case neg =>
      have unknown : noKnownSubcode (sub :: rest) = true := by
        simp only [noKnownSubcode, knownSubcodes, List.contains_eq_mem, List.mem_cons, List.not_mem_nil, jam, pin,
          manual, moduleLock, moduleUnlock, timeout, nfc, battery, or_self, decide_false, Bool.not_false]
      exact Bool.and_eq_true_iff.2 ⟨decide_eq_true fits, unknown⟩
    all_goals exact decide_eq_true fits

theorem selectEvent_of_noKnownSubcode (sequence : Byte) {payload : List Byte}
    (h : noKnownSubcode payload = true) : selectEvent sequence payload = .evtUnknown sequence payload := by
  cases payload with
  | nil => rfl
  | cons sub rest =>
    simp only [noKnownSubcode, knownSubcodes, List.contains_eq_mem, List.mem_cons, List.not_mem_nil, or_false,
      Bool.not_eq_true', decide_eq_false_iff_not, not_or] at h
    simp only [selectEvent, h, if_false]

/-- From 0xB1 only a status report is received, from 0xB0 any command. -/
theorem source_of_accepted {command source : Byte} (accepted : sourceAccepted command source = true)
    (other : command ≠ Config.cmdStatus) : source = Config.srcPeriph :=
  ((sourceAccepted_iff command source).1 accepted).resolve_right fun h => other h.2

/-- The row that a received frame selects is encoded as that frame. -/
theorem frame?_selectRx {fr : Frame} (accepted : sourceAccepted fr.command fr.source = true) :
    (selectRx fr).frame? = some fr := by
  obtain ⟨command, source, sequence, payload⟩ := fr
  simp only [selectRx]
  split_ifs with status event setting config discovery
  case pos =>
    subst status
    rcases (sourceAccepted_iff _ _).1 accepted with h | ⟨h, -⟩ <;> cases h <;> rfl
  all_goals obtain rfl : source = Config.srcPeriph := source_of_accepted accepted status
  case pos =>
    rw [frame?_selectEvent, event]
  case neg => rfl
  all_goals subst command; rfl

theorem wellFormed_selectRx {fr : Frame} (fits : fr.payload.length ≤ Config.payloadMax) :
    (selectRx fr).wellFormed = true := by
  have payloadOk : payloadFits fr.payload = true := decide_eq_true fits
  rw [selectRx]
  split_ifs with status event setting config discovery
  case pos => exact payloadOk
  case pos => exact wellFormed_selectEvent _ fits
  case neg =>
    have unknown : knownCommands.contains fr.command = false := by
      simp only [knownCommands, List.contains_eq_mem, List.mem_cons, List.not_mem_nil, status, event, setting,
        config, discovery, or_self, decide_false]
    exact Bool.and_eq_true_iff.2 ⟨payloadOk, by rw [unknown]; rfl⟩
  all_goals exact payloadOk

theorem selectRx_of_unknownCommand {command : Byte} (unknown : knownCommands.contains command = false)
    (source sequence : Byte) (payload : List Byte) :
    selectRx ⟨command, source, sequence, payload⟩ = .cmdUnknown command sequence payload := by
  simp only [knownCommands, List.contains_eq_mem, List.mem_cons, List.not_mem_nil, or_false,
    decide_eq_false_iff_not, not_or] at unknown
  simp only [selectRx, unknown, if_false]

/-- A well-formed received row is the row that its own frame selects. -/
theorem selectRx_of_frame? {i : Instr} {fr : Frame} (hw : i.wellFormed = true) (h : i.frame? = some fr)
    (accepted : sourceAccepted fr.command fr.source = true) : selectRx fr = i := by
  cases i
  case statusRpt alt _ _ => cases h; cases alt <;> rfl
  case evtUnknown =>
    cases h
    exact selectEvent_of_noKnownSubcode _ (Bool.and_eq_true_iff.1 hw).2
  case cmdUnknown =>
    cases h
    exact selectRx_of_unknownCommand (by simpa using (Bool.and_eq_true_iff.1 hw).2) _ _ _
  case lockCmdLock | lockCmdUnlock | statusReq | settingAck | discoveryRpl =>
    cases h
    cases accepted
  all_goals cases h
  all_goals rfl

/-! ### The row a sent frame selects -/

/-- The row that a sent frame selects is well-formed and encoded as that frame. -/
theorem frame?_of_selectTx {fr : Frame} {i : Instr} (h : selectTx fr = some i) :
    i.wellFormed = true ∧ i.frame? = some fr := by
  rw [selectTx] at h
  split_ifs at h with lock unlock status setting discovery
  all_goals cases h
  · exact ⟨rfl, congrArg some lock.symm⟩
  · exact ⟨rfl, congrArg some unlock.symm⟩
  · exact ⟨rfl, congrArg some status.symm⟩
  · exact ⟨rfl, congrArg some setting.symm⟩
  · exact ⟨rfl, congrArg some discovery.symm⟩

/-- A row whose frame the source filter stops is the row that this frame selects as sent. -/
theorem selectTx_of_frame? {i : Instr} {fr : Frame} (h : i.frame? = some fr)
    (stopped : sourceAccepted fr.command fr.source = false) : selectTx fr = some i := by
  cases i
  case lockCmdLock | lockCmdUnlock | statusReq => cases h; rfl
  case settingAck sequence => cases h; simp [selectTx]
  case discoveryRpl sequence => cases h; simp [selectTx]
  case statusRpt alt _ _ => cases h; cases alt <;> cases stopped
  case cmdUnknown => cases h; simp [sourceAccepted] at stopped
  all_goals cases h
  all_goals cases stopped

/-! ### Decoding -/

/-- A well-formed row of format FRAME has a payload the format can carry. -/
theorem payload_fits_of_wellFormed {i : Instr} {fr : Frame} (hw : i.wellFormed = true) (h : i.frame? = some fr) :
    fr.payload.length ≤ Config.payloadMax := by
  cases i <;> cases h
  case evtUnknown | cmdUnknown => exact of_decide_eq_true (Bool.and_eq_true_iff.1 hw).1
  case lockCmdLock | lockCmdUnlock | statusReq | settingAck | discoveryRpl => exact Nat.le_of_ble_eq_true rfl
  all_goals exact of_decide_eq_true hw

/-- A frame from an accepted source is decoded as the received row it selects. -/
theorem decodeFrame_of_accepted {fr : Frame} (fits : fr.payload.length ≤ Config.payloadMax)
    (accepted : sourceAccepted fr.command fr.source = true) : decodeFrame (frameBytes fr) = .ok (selectRx fr) := by
  have countable := Countable.of_fits fits
  rw [decodeFrame, validateFrame_frameBytes countable, if_pos accepted, decodeFields_frameBytes countable]
  exact if_pos fits

/-- A frame that the source filter stops is decoded as the sent row it selects, if it selects one. -/
theorem decodeFrame_of_stopped {fr : Frame} (countable : Countable fr)
    (stopped : sourceAccepted fr.command fr.source = false) :
    decodeFrame (frameBytes fr) =
      (selectTx fr).elim (.error (.check .ignoredSource)) .ok := by
  rw [decodeFrame, validateFrame_frameBytes countable, stopped, if_neg Bool.false_ne_true,
    decodeFields_frameBytes countable]
  cases selectTx fr <;> rfl

/-- What bytes that decode are: the bytes of a frame, and the row is the one that frame selects. -/
theorem decodeFrame_eq_ok {raw : List Byte} {i : Instr} (h : decodeFrame raw = .ok i) :
    ∃ fr, Countable fr ∧ raw = frameBytes fr ∧
      ((sourceAccepted fr.command fr.source = true ∧ fr.payload.length ≤ Config.payloadMax ∧ i = selectRx fr) ∨
        (sourceAccepted fr.command fr.source = false ∧ selectTx fr = some i)) := by
  have past : validateFrame raw = .ok ∨ validateFrame raw = .error .ignoredSource := by
    rw [decodeFrame] at h
    split at h
    case h_1 ok => exact .inl ok
    case h_2 ignored => exact .inr ignored
    case h_3 => cases h
  obtain ⟨fr, countable, rfl⟩ := (intact_of_validateFrame past).exists_frame
  refine ⟨fr, countable, rfl, ?_⟩
  cases accepted : sourceAccepted fr.command fr.source with
  | true =>
    by_cases fits : fr.payload.length ≤ Config.payloadMax
    · rw [decodeFrame_of_accepted fits accepted] at h
      cases h
      exact .inl ⟨rfl, fits, rfl⟩
    · rw [decodeFrame, validateFrame_frameBytes countable, if_pos accepted, decodeFields_frameBytes countable] at h
      simp [fits] at h
  | false =>
    rw [decodeFrame_of_stopped countable accepted] at h
    cases row : selectTx fr with
    | none => simp [row] at h
    | some j =>
      rw [row] at h
      cases h
      exact .inr ⟨rfl, rfl⟩

theorem exists_frame_of_isRx_or_isTx {i : Instr} (h : (i.isRx || i.isTx) = true) : ∃ fr, i.frame? = some fr := by
  cases frame : i.frame? with
  | none => simp [Instr.isRx, Instr.isTx, frame] at h
  | some fr => exact ⟨fr, rfl⟩

/-- Settles O1: the frame of the row selects the row, as received or as sent. -/
theorem decodeInvertsEncode : Obligations.DecodeInvertsEncode := by
  intro i hw isFrame
  obtain ⟨fr, frame⟩ := exists_frame_of_isRx_or_isTx isFrame
  have fits := payload_fits_of_wellFormed hw frame
  rw [encode_of_frame? frame]
  cases accepted : sourceAccepted fr.command fr.source with
  | true => rw [decodeFrame_of_accepted fits accepted, selectRx_of_frame? hw frame accepted]
  | false =>
    rw [decodeFrame_of_stopped (Countable.of_fits fits) accepted, selectTx_of_frame? frame accepted]
    rfl

/-- Settles O2: bytes that decode are those of a frame, and the row it selects is encoded as it. -/
theorem encodeInvertsDecode : Obligations.EncodeInvertsDecode := by
  intro raw i h
  obtain ⟨fr, -, rfl, ⟨accepted, fits, rfl⟩ | ⟨-, row⟩⟩ := decodeFrame_eq_ok h
  · exact ⟨wellFormed_selectRx fits, encode_of_frame? (frame?_selectRx accepted)⟩
  · obtain ⟨hw, frame⟩ := frame?_of_selectTx row
    exact ⟨hw, encode_of_frame? frame⟩

/-- Settles O4: four of the sequences are encodings, the fifth has a wrong last byte. -/
theorem writtenWordsDecode : Obligations.WrittenWordsDecode :=
  ⟨decodeInvertsEncode (.statusRpt true 0x03 [0x00]) rfl rfl,
    decodeInvertsEncode (.evtPinUnlock 0x00 [0x05]) rfl rfl,
    decodeInvertsEncode (.discoveryReq 0x07 []) rfl rfl,
    decodeInvertsEncode (.settingAck 0x2A) rfl rfl,
    rfl⟩

/-! ### The table's own numbering -/

/-- The 40-bit number of five bytes, the first most significant (R71). -/
def tableWord (b₀ b₁ b₂ b₃ b₄ : Byte) : BitVec 40 := b₀ ++ b₁ ++ b₂ ++ b₃ ++ b₄

/-- A mask is applied byte by byte. -/
theorem tableWord_and (a₀ a₁ a₂ a₃ a₄ m₀ m₁ m₂ m₃ m₄ : Byte) :
    tableWord a₀ a₁ a₂ a₃ a₄ &&& tableWord m₀ m₁ m₂ m₃ m₄ =
      tableWord (a₀ &&& m₀) (a₁ &&& m₁) (a₂ &&& m₂) (a₃ &&& m₃) (a₄ &&& m₄) := by
  have byte : ∀ {n : Nat} (x y : BitVec n) (a b : Byte), (x ++ a) &&& (y ++ b) = (x &&& y) ++ (a &&& b) :=
    fun _ _ _ _ => BitVec.and_append
  calc tableWord a₀ a₁ a₂ a₃ a₄ &&& tableWord m₀ m₁ m₂ m₃ m₄
      = (a₀ ++ a₁ ++ a₂ ++ a₃ &&& m₀ ++ m₁ ++ m₂ ++ m₃) ++ (a₄ &&& m₄) := byte _ _ _ _
    _ = tableWord (a₀ &&& m₀) (a₁ &&& m₁) (a₂ &&& m₂) (a₃ &&& m₃) (a₄ &&& m₄) := by
      rw [byte, byte, byte, tableWord]

theorem byte_and_ff (b : Byte) : b &&& 0xFF = b := BitVec.and_allOnes

theorem byte_and_zero (b : Byte) : b &&& 0 = 0 := BitVec.and_zero

theorem tablePrefix_frameBytes (fr : Frame) :
    tablePrefix (frameBytes fr) =
      tableWord fr.command fr.source fr.sequence (BitVec.ofNat 8 fr.payload.length)
        (rawByte (frameBytes fr) 4) := rfl

/-- The mask of the received rows that fix command and source. -/
theorem tablePrefix_and_command_source (command source sequence : Byte) (payload : List Byte) :
    tablePrefix (frameBytes ⟨command, source, sequence, payload⟩) &&& 0xFFFF000000 =
      tableWord command source 0 0 0 := by
  rw [show (0xFFFF000000 : BitVec 40) = tableWord 0xFF 0xFF 0 0 0 from rfl, tablePrefix_frameBytes, tableWord_and]
  simp only [byte_and_ff, byte_and_zero]

/-- The mask of the lock events, which fix their sub-code too. -/
theorem tablePrefix_and_subcode (command source sequence sub : Byte) (rest : List Byte) :
    tablePrefix (frameBytes ⟨command, source, sequence, sub :: rest⟩) &&& 0xFFFF0000FF =
      tableWord command source 0 0 sub := by
  rw [show (0xFFFF0000FF : BitVec 40) = tableWord 0xFF 0xFF 0 0 0xFF from rfl, tablePrefix_frameBytes, tableWord_and]
  simp only [byte_and_ff, byte_and_zero]
  rfl

/-- The mask of STATUS.RPT leaves bit 0 of the source open (R64). -/
theorem tablePrefix_and_status (command source sequence : Byte) (payload : List Byte) :
    tablePrefix (frameBytes ⟨command, source, sequence, payload⟩) &&& 0xFFFE000000 =
      tableWord command (source &&& 0xFE) 0 0 0 := by
  rw [show (0xFFFE000000 : BitVec 40) = tableWord 0xFF 0xFE 0 0 0 from rfl, tablePrefix_frameBytes, tableWord_and]
  simp only [byte_and_ff, byte_and_zero]

/-- The mask of CMD.UNKNOWN, which fixes the source alone. -/
theorem tablePrefix_and_source (command source sequence : Byte) (payload : List Byte) :
    tablePrefix (frameBytes ⟨command, source, sequence, payload⟩) &&& 0x00FF000000 = tableWord 0 source 0 0 0 := by
  rw [show (0x00FF000000 : BitVec 40) = tableWord 0 0xFF 0 0 0 from rfl, tablePrefix_frameBytes, tableWord_and]
  simp only [byte_and_ff, byte_and_zero]

/-- The mask of SETTING.ACK, which leaves sequence and checksum open. -/
theorem tablePrefix_and_length (command source sequence : Byte) (payload : List Byte) :
    tablePrefix (frameBytes ⟨command, source, sequence, payload⟩) &&& 0xFFFF00FF00 =
      tableWord command source 0 (BitVec.ofNat 8 payload.length) 0 := by
  rw [show (0xFFFF00FF00 : BitVec 40) = tableWord 0xFF 0xFF 0 0xFF 0 from rfl, tablePrefix_frameBytes, tableWord_and]
  simp only [byte_and_ff, byte_and_zero]

/-- The mask of DISCOVERY.RPL, which leaves the sequence open. -/
theorem tablePrefix_and_payload (command source sequence p : Byte) (more : List Byte) :
    tablePrefix (frameBytes ⟨command, source, sequence, p :: more⟩) &&& 0xFFFF00FFFF =
      tableWord command source 0 (BitVec.ofNat 8 (more.length + 1)) p := by
  rw [show (0xFFFF00FFFF : BitVec 40) = tableWord 0xFF 0xFF 0 0xFF 0xFF from rfl, tablePrefix_frameBytes,
    tableWord_and]
  simp only [byte_and_ff, byte_and_zero]
  rfl

/-- Settles O3: row by row, by the mask of the row's kind; three sent rows are fixed words. -/
theorem encodingMatchesTableRow : Obligations.EncodingMatchesTableRow := by
  rintro i value mask - row
  cases i <;> cases row
  case statusRpt alt _ _ =>
    rw [encode_of_frame? rfl, tablePrefix_and_status]
    cases alt <;> decide
  case evtUnknown | settingChg | configEnter | discoveryReq =>
    rw [encode_of_frame? rfl, tablePrefix_and_command_source]
    decide
  case cmdUnknown =>
    rw [encode_of_frame? rfl, tablePrefix_and_source]
    decide
  case settingAck =>
    rw [encode_of_frame? rfl, tablePrefix_and_length]
    decide
  case discoveryRpl =>
    rw [encode_of_frame? rfl, tablePrefix_and_payload]
    decide
  case lockCmdLock | lockCmdUnlock | statusReq => decide
  all_goals
    rw [encode_of_frame? rfl, tablePrefix_and_subcode]
    decide

end Sys2Proof.Proofs
end

section
/-! Sending: what goes out for a frame, and the five frames the block sends (spec/44_encode_transmit.md R170 to
R178). -/

namespace Sys2Proof.Proofs

open Sys2Proof Sys2Proof.Machine Sys2Proof.Laws Sys2Proof.Safety

/-- Settles O16: BUILD looks at the payload's length first. -/
theorem buildRefusesOverlongPayload : Obligations.BuildRefusesOverlongPayload :=
  fun _ _ _ _ _ overlong => dif_neg (Nat.not_le.2 overlong)

/-- Settles O18: BUILD followed at once by TRANSMIT is `send`. -/
theorem transmitAfterBuildSendsTheBuiltBytes : Obligations.TransmitAfterBuildSendsTheBuiltBytes := by
  intro command source sequence payload s fits
  obtain ⟨o, rfl, rfl, rfl, rfl⟩ := exists_outFrame command source sequence fits
  refine ⟨_, frameBytes o.frame, exec_build_of_fits o s, giveBack_returned _ _, ?_⟩
  have sends : transmit (build o s) = emit (sendOutputs (frameBytes o.frame)) (build o s) := send_eq o s
  calc exec .transmit (giveBack (.built (frameBytes o.frame)) (build o s))
      = .next (giveBack (.built (frameBytes o.frame)) (transmit (build o s))) := rfl
    _ = _ := by rw [sends]; rfl

/-- The bytes of a frame have gone out and stand in the outgoing register, and nothing else has changed. -/
theorem sent_send (o : OutFrame) (s : State) : Sent (frameBytes o.frame) s (send o s) := by
  refine ⟨fun k => ?register, ?length, send_trace o s, rfl⟩
  case register => exact read_build_txBuf o s k
  case length => rw [send_txLen, length_frameBytes]; rfl

/-! ### The listed frames -/

theorem frameBytes_lockCommand_lock :
    frameBytes (lockCommandFrame .lock).frame = [0x10, 0xA0, 0x00, 0x01, 0xFF, 0x4E] := by decide

theorem frameBytes_lockCommand_unlock :
    frameBytes (lockCommandFrame .unlock).frame = [0x10, 0xA0, 0x00, 0x01, 0x00, 0xB1] := by decide

theorem frameBytes_statusRequest :
    frameBytes statusRequestFrame.frame = [0x11, 0xA0, 0x00, 0x00, 0xB1] := by decide

theorem frameBytes_settingAck (sequence : Byte) :
    frameBytes (settingAckFrame sequence).frame = [0x33, 0xA1, sequence, 0x00, 0x92 ^^^ sequence] := by
  have checksum : xsum [0x33, 0xA1, sequence, 0x00] = 0x92 ^^^ sequence := by
    rw [show [0x33, 0xA1, sequence, 0x00] = [0x33, 0xA1] ++ [sequence] ++ [0x00] from rfl, xsum_concat, xsum_concat]
    exact BitVec.xor_zero
  rw [← checksum]
  rfl

theorem frameBytes_discoveryReply (sequence : Byte) :
    frameBytes (discoveryReplyFrame sequence).frame =
      [0x44, 0xA1, sequence, 0x01, 0x00, 0xE4 ^^^ sequence] := by
  have checksum : xsum [0x44, 0xA1, sequence, 0x01, 0x00] = 0xE4 ^^^ sequence := by
    rw [show [0x44, 0xA1, sequence, 0x01, 0x00] = [0x44, 0xA1] ++ [sequence] ++ [0x01, 0x00] from rfl, xsum_append,
      xsum_append, BitVec.xor_assoc, BitVec.xor_comm (xsum [sequence]), ← BitVec.xor_assoc, xsum_cons sequence]
    exact congrArg _ BitVec.xor_zero
  rw [← checksum]
  rfl

theorem sendable_lockCommand (target : LockTarget) : Sendable (frameBytes (lockCommandFrame target).frame) := by
  cases target with
  | lock => exact .inl frameBytes_lockCommand_lock
  | unlock => exact .inr (.inl frameBytes_lockCommand_unlock)

theorem sendable_statusRequest : Sendable (frameBytes statusRequestFrame.frame) :=
  .inr (.inr (.inl frameBytes_statusRequest))

theorem sendable_settingAck (sequence : Byte) : Sendable (frameBytes (settingAckFrame sequence).frame) :=
  .inr (.inr (.inr (.inl ⟨sequence, frameBytes_settingAck sequence⟩)))

theorem sendable_discoveryReply (sequence : Byte) : Sendable (frameBytes (discoveryReplyFrame sequence).frame) :=
  .inr (.inr (.inr (.inr ⟨sequence, frameBytes_discoveryReply sequence⟩)))

/-- Every listed byte sequence is that of one of the frames of R174 to R177. -/
theorem sendable_cases {bytes : List Byte} (h : Sendable bytes) :
    (∃ target, bytes = frameBytes (lockCommandFrame target).frame) ∨
      bytes = frameBytes statusRequestFrame.frame ∨
      (∃ sequence, bytes = frameBytes (settingAckFrame sequence).frame) ∨
      ∃ sequence, bytes = frameBytes (discoveryReplyFrame sequence).frame := by
  rcases h with rfl | rfl | rfl | ⟨ss, rfl⟩ | ⟨ss, rfl⟩
  · exact .inl ⟨.lock, frameBytes_lockCommand_lock.symm⟩
  · exact .inl ⟨.unlock, frameBytes_lockCommand_unlock.symm⟩
  · exact .inr (.inl frameBytes_statusRequest.symm)
  · exact .inr (.inr (.inl ⟨ss, (frameBytes_settingAck ss).symm⟩))
  · exact .inr (.inr (.inr ⟨ss, (frameBytes_discoveryReply ss).symm⟩))

/-! ### The instructions that send them -/

theorem exec_lockCmdLock (s : State) : exec .lockCmdLock s = .next (send (lockCommandFrame .lock) s) := rfl

theorem exec_lockCmdUnlock (s : State) : exec .lockCmdUnlock s = .next (send (lockCommandFrame .unlock) s) := rfl

theorem exec_statusReq (s : State) : exec .statusReq s = .next (send statusRequestFrame s) := rfl

theorem exec_settingAck (sequence : Byte) (s : State) :
    exec (.settingAck sequence) s = .next (send (settingAckFrame sequence) s) := rfl

theorem exec_discoveryRpl (sequence : Byte) (s : State) :
    exec (.discoveryRpl sequence) s = .next (send (discoveryReplyFrame sequence) s) := rfl

theorem exec_lockReq (target : LockTarget) (s : State) :
    exec (.lockReq target) s = .next (send (lockCommandFrame target) s) := rfl

/-- An instruction that sends a frame with the given bytes. -/
theorem exists_sent {i : Instr} {s : State} {o : OutFrame} {bytes : List Byte} (runs : exec i s = .next (send o s))
    (listed : frameBytes o.frame = bytes) : ∃ t, exec i s = .next t ∧ Sent bytes s t :=
  ⟨_, runs, listed ▸ sent_send o s⟩

/-- Settles O19: each of the five rows sends its frame. -/
theorem sentFramesHaveTheListedBytes : Obligations.SentFramesHaveTheListedBytes :=
  fun sequence s =>
    ⟨exists_sent (exec_lockCmdLock s) frameBytes_lockCommand_lock,
      exists_sent (exec_lockCmdUnlock s) frameBytes_lockCommand_unlock,
      exists_sent (exec_statusReq s) frameBytes_statusRequest,
      exists_sent (exec_settingAck sequence s) (frameBytes_settingAck sequence),
      exists_sent (exec_discoveryRpl sequence s) (frameBytes_discoveryReply sequence)⟩

/-- Settles O20: in every state the request sends its lock command. -/
theorem lockRequestSendsTheLockCommand : Obligations.LockRequestSendsTheLockCommand :=
  fun s =>
    ⟨exists_sent (exec_lockReq .lock s) frameBytes_lockCommand_lock,
      exists_sent (exec_lockReq .unlock s) frameBytes_lockCommand_unlock⟩

end Sys2Proof.Proofs
end

section
/-! The received rows as instructions: what each one's rule asks for, and what is done with it
(spec/43_dispatch.md R140 to R157). -/

namespace Sys2Proof.Proofs

open Sys2Proof Sys2Proof.Machine Sys2Proof.Laws Sys2Proof.Safety

/-! ### What performing a rule's result does -/

/-- The outputs of a rule's result: its notices, then its reply behind the wake pulse (R143). -/
def resultOutputs (r : Result) : List Output :=
  r.notices ++ r.reply.elim [] fun o => sendOutputs (frameBytes o.frame)

section
variable (r : Result) (s : State)

@[simp] theorem perform_trace : (perform r s).trace = s.trace ++ resultOutputs r := by
  cases h : r.reply <;> simp [perform, sendReply, resultOutputs, h]

@[simp] theorem perform_discovered : (perform r s).discovered = true := by
  cases h : r.reply <;> simp [perform, sendReply, h]

@[simp] theorem perform_pollForce : (perform r s).pollForce = (r.force || s.pollForce) := by
  cases h : r.reply <;> simp [perform, sendReply, h]

@[simp] theorem perform_rxBuf : (perform r s).rxBuf = s.rxBuf := by
  cases h : r.reply <;> simp [perform, sendReply, h]

@[simp] theorem perform_rxLen : (perform r s).rxLen = s.rxLen := by
  cases h : r.reply <;> simp [perform, sendReply, h]

@[simp] theorem perform_lastByteTime : (perform r s).lastByteTime = s.lastByteTime := by
  cases h : r.reply <;> simp [perform, sendReply, h]

@[simp] theorem perform_lastPoll : (perform r s).lastPoll = s.lastPoll := by
  cases h : r.reply <;> simp [perform, sendReply, h]

@[simp] theorem perform_pending : (perform r s).pending = s.pending := by
  cases h : r.reply <;> simp [perform, sendReply, h]

@[simp] theorem perform_returned : (perform r s).returned = s.returned := by
  cases h : r.reply <;> simp [perform, sendReply, h]

end

/-! ### The rows' rules -/

theorem exec_statusRpt (alt : Bool) (sequence : Byte) (payload : List Byte) (s : State) :
    exec (.statusRpt alt sequence payload) s = .next (perform (statusReport
      ⟨Config.cmdStatus, if alt then Config.srcPeriphAlt else Config.srcPeriph, sequence, payload⟩) s) := rfl

theorem exec_evtJam (sequence : Byte) (rest : List Byte) (s : State) :
    exec (.evtJam sequence rest) s = .next (perform jamEvent s) := rfl

theorem exec_evtPinUnlock (sequence : Byte) (rest : List Byte) (s : State) :
    exec (.evtPinUnlock sequence rest) s =
      .next (perform (pinUnlockEvent (eventFrame sequence Config.subPinUnlock rest)) s) := rfl

theorem exec_evtManualLock (sequence : Byte) (rest : List Byte) (s : State) :
    exec (.evtManualLock sequence rest) s = .next (perform manualLockEvent s) := rfl

theorem exec_evtModuleLock (sequence : Byte) (rest : List Byte) (s : State) :
    exec (.evtModuleLock sequence rest) s = .next (perform moduleLockEvent s) := rfl

theorem exec_evtModuleUnlock (sequence : Byte) (rest : List Byte) (s : State) :
    exec (.evtModuleUnlock sequence rest) s = .next (perform moduleUnlockEvent s) := rfl

theorem exec_evtTimeoutRelock (sequence : Byte) (rest : List Byte) (s : State) :
    exec (.evtTimeoutRelock sequence rest) s = .next (perform timeoutRelockEvent s) := rfl

theorem exec_evtNfcUnlock (sequence : Byte) (rest : List Byte) (s : State) :
    exec (.evtNfcUnlock sequence rest) s =
      .next (perform (nfcUnlockEvent (eventFrame sequence Config.subNfcUnlock rest)) s) := rfl

theorem exec_evtUnknown (sequence : Byte) (payload : List Byte) (s : State) :
    exec (.evtUnknown sequence payload) s =
      .next (perform (unknownEvent ⟨Config.cmdEvent, Config.srcPeriph, sequence, payload⟩) s) := rfl

theorem exec_settingChg (sequence : Byte) (payload : List Byte) (s : State) :
    exec (.settingChg sequence payload) s =
      .next (perform (settingChanged ⟨Config.cmdSetting, Config.srcPeriph, sequence, payload⟩) s) := rfl

theorem exec_discoveryReq (sequence : Byte) (payload : List Byte) (s : State) :
    exec (.discoveryReq sequence payload) s =
      .next (perform (discoveryRequested ⟨Config.cmdDiscovery, Config.srcPeriph, sequence, payload⟩) s) := rfl

theorem exec_cmdUnknown (command sequence : Byte) (payload : List Byte) (s : State) :
    exec (.cmdUnknown command sequence payload) s =
      .next (perform (unknownCommand ⟨command, Config.srcPeriph, sequence, payload⟩) s) := rfl

/-! ### The rows without a reply -/

/-- A status report asks for its one event, or for nothing when its first byte says nothing (R144). -/
theorem perform_statusReport (fr : Frame) (s : State) :
    perform (statusReport fr) s = { s with
      discovered := true
      trace := s.trace ++ ((lockStateByte fr).bind lockState).toList.map fun locked =>
        .event (.statusChanged locked) } := by
  rw [perform_of_notices_only rfl rfl]
  cases h : (lockStateByte fr).bind lockState <;> simp [Result.notices, statusReport, h]

theorem lockState_of_other {b : Byte} (notLocked : b ≠ 0xFF) (notUnlocked : b ≠ 0x00) : lockState b = none := by
  rw [lockState, if_neg notLocked, if_neg notUnlocked]

/-- Settles O22: by what the first payload byte says of the lock. -/
theorem statusReportTellsTheLockState : Obligations.StatusReportTellsTheLockState := by
  intro alt sequence rest s
  refine ⟨?locked, ?unlocked, ?absent, fun b notLocked notUnlocked => ?other⟩
  all_goals rw [exec_statusRpt, perform_statusReport]
  case locked | unlocked => rfl
  case absent => simp [lockStateByte]
  case other => simp [lockStateByte, lockState_of_other notLocked notUnlocked]

/-- Settles O23: each of the five rules asks for its event alone. -/
theorem lockEventsWithoutSlot : Obligations.LockEventsWithoutSlot := by
  intro sequence rest s
  rw [exec_evtJam, exec_evtManualLock, exec_evtModuleLock, exec_evtModuleUnlock, exec_evtTimeoutRelock]
  refine ⟨?jam, ?manual, ?moduleLock, ?moduleUnlock, ?timeout⟩
  all_goals
    rw [perform_of_notices_only rfl rfl]
    rfl

/-- A credential's rule asks for its event alone, with the slot that follows the sub-code (R146, R151). -/
theorem perform_credential (source : LockSource) (sequence sub : Byte) (rest : List Byte) (s : State) :
    perform { event := some (.lockActuated source (slot (eventFrame sequence sub rest)) (some false)) } s = { s with
      discovered := true, trace := s.trace ++ [.event (.lockActuated source rest.head? (some false))] } := by
  rw [perform_of_notices_only rfl rfl]
  cases rest <;> rfl

/-- Settles O25: both credentials, with a byte after the sub-code and without one. -/
theorem credentialUnlocksCarryTheSlot : Obligations.CredentialUnlocksCarryTheSlot := by
  intro sequence slotByte rest s
  simp only [exec_evtPinUnlock, exec_evtNfcUnlock, pinUnlockEvent, nfcUnlockEvent, perform_credential]
  exact ⟨rfl, rfl, rfl, rfl⟩

/-- Settles O26: the rule of R153 asks for its diagnostic and its event. -/
theorem unknownSubcodeIsReported : Obligations.UnknownSubcodeIsReported := by
  intro sequence payload s
  rw [exec_evtUnknown, perform_of_notices_only rfl rfl, List.head?_eq_getElem?]
  rfl

/-- Settles O30: the rule of R157 asks for its diagnostic and its event. -/
theorem unknownCommandIsReported : Obligations.UnknownCommandIsReported := by
  intro command sequence payload s
  rw [exec_cmdUnknown, perform_of_notices_only rfl rfl]
  rfl

/-! ### The rows with a reply -/

/-- A changed setting: the event, then the acknowledgement (R154). -/
theorem perform_settingChanged {fr : Frame} (command : fr.command = Config.cmdSetting) (s : State) :
    perform (settingChanged fr) s = send (settingAckFrame fr.sequence)
      { s with discovered := true, trace := s.trace ++ [.event .settingChanged] } := by
  obtain ⟨_, source, sequence, payload⟩ := fr
  cases command
  rfl

/-- A discovery request: the event, the forced poll, then the reply (R156). -/
theorem perform_discoveryRequested {fr : Frame} (command : fr.command = Config.cmdDiscovery) (s : State) :
    perform (discoveryRequested fr) s = send (discoveryReplyFrame fr.sequence)
      { s with discovered := true, pollForce := true, trace := s.trace ++ [.event .discoveryRequest] } := by
  obtain ⟨_, source, sequence, payload⟩ := fr
  cases command
  rfl

/-- Settles O27: after the event the acknowledgement is sent. -/
theorem settingChangeIsAcknowledged : Obligations.SettingChangeIsAcknowledged := by
  intro sequence payload s
  refine ⟨_, (exec_settingChg sequence payload s).trans (congrArg _ (perform_settingChanged rfl s)), ?_⟩
  rw [← frameBytes_settingAck]
  exact sent_send _ _

/-- Settles O29: after the event the reply is sent. -/
theorem discoveryIsAnsweredAndForcesThePoll : Obligations.DiscoveryIsAnsweredAndForcesThePoll := by
  intro sequence payload s
  refine ⟨_, (exec_discoveryReq sequence payload s).trans (congrArg _ (perform_discoveryRequested rfl s)), ?_⟩
  rw [← frameBytes_discoveryReply]
  exact sent_send _ _

end Sys2Proof.Proofs
end

section
/-! The dispatcher over bytes: what it does with a frame that passes the four checks and with one that fails one of
them (spec/43_dispatch.md R140 to R143, R158, spec/60_exceptions.md R210, R216). -/

namespace Sys2Proof.Proofs

open Sys2Proof Sys2Proof.Machine Sys2Proof.Laws Sys2Proof.Safety

theorem exec_dispatch (f : List Byte) (s : State) : exec (.dispatch f) s = .next (dispatch f s) := rfl

theorem dispatch_of_ok {f : List Byte} (verdict : validateFrame f = .ok) (s : State) :
    dispatch f s = perform (commandRule (decodeFields f)) s := by
  rw [dispatch, verdict]

theorem dispatch_of_error {f : List Byte} {code : CheckError} (verdict : validateFrame f = .error code) (s : State) :
    dispatch f s = raise (checkDiag code f) s := by
  rw [dispatch, verdict]

/-! ### Valid frames -/

/-- A valid sequence is the bytes of one frame, from an accepted source, and DECODE reads that frame. -/
theorem exists_frame_of_ok {f : List Byte} (verdict : validateFrame f = .ok) :
    ∃ fr, f = frameBytes fr ∧ decodeFields f = fr ∧ sourceAccepted fr.command fr.source = true := by
  obtain ⟨fr, countable, rfl⟩ := (intact_of_validateFrame (.inl verdict)).exists_frame
  refine ⟨fr, rfl, decodeFields_frameBytes countable, ?_⟩
  by_contra stopped
  rw [validateFrame_frameBytes countable, if_neg stopped] at verdict
  cases verdict

/-- The rule of a lock event is that of the row it selects. -/
theorem exec_selectEvent (source sequence : Byte) (payload : List Byte) (s : State) :
    exec (selectEvent sequence payload) s =
      .next (perform (eventRule ⟨Config.cmdEvent, source, sequence, payload⟩) s) := by
  cases payload with
  | nil => rfl
  | cons sub rest =>
    have selected : subcode ⟨Config.cmdEvent, source, sequence, sub :: rest⟩ = some sub := rfl
    simp only [selectEvent, eventRule, selected]
    split_ifs
    all_goals rfl

/-- The rule of a command is that of the row it selects; the source plays no part in it (R142). -/
theorem exec_selectRx (fr : Frame) (s : State) :
    exec (selectRx fr) s = .next (perform (commandRule fr) s) := by
  obtain ⟨command, source, sequence, payload⟩ := fr
  simp only [selectRx, commandRule]
  split_ifs with status event setting config discovery
  case pos => rfl
  case pos =>
    subst event
    exact exec_selectEvent source sequence payload s
  case neg => rfl
  all_goals subst command; rfl

theorem isTx_of_selectTx {fr : Frame} {i : Instr} (stopped : sourceAccepted fr.command fr.source = false)
    (row : selectTx fr = some i) : i.isTx = true := by
  rw [Instr.isTx, (frame?_of_selectTx row).2]
  simp [stopped]

theorem isRx_eq_false_of_isTx {i : Instr} (h : i.isTx = true) : i.isRx = false := by
  rw [Instr.isTx] at h
  rw [Instr.isRx]
  cases frame : i.frame? with
  | none => rfl
  | some fr => simpa [frame] using h

/-- Settles O31: a received row comes from a valid frame, whose rule is the row's. -/
theorem dispatchRunsTheDecodedFrame : Obligations.DispatchRunsTheDecodedFrame := by
  intro f i s decodes received
  obtain ⟨fr, countable, rfl, ⟨accepted, -, rfl⟩ | ⟨stopped, row⟩⟩ := decodeFrame_eq_ok decodes
  · have verdict : validateFrame (frameBytes fr) = .ok := by
      rw [validateFrame_frameBytes countable, if_pos accepted]
    rw [exec_dispatch, dispatch_of_ok verdict, decodeFields_frameBytes countable, exec_selectRx]
  · simp [isRx_eq_false_of_isTx (isTx_of_selectTx stopped row)] at received

/-! ### What the rules ask for -/

theorem eventRule_reply (fr : Frame) : (eventRule fr).reply = none := by
  rw [eventRule]
  cases subcode fr with
  | none => rfl
  | some sub =>
    dsimp only
    split_ifs
    all_goals rfl

/-- Only a setting change and a discovery request are answered (R158). -/
theorem commandRule_reply (fr : Frame) :
    (commandRule fr).reply =
      if fr.command = Config.cmdSetting then some (settingAckFrame fr.sequence)
      else if fr.command = Config.cmdDiscovery then some (discoveryReplyFrame fr.sequence)
      else none := by
  obtain ⟨command, source, sequence, payload⟩ := fr
  by_cases status : command = Config.cmdStatus
  case pos => subst status; rfl
  by_cases event : command = Config.cmdEvent
  case pos => subst event; exact eventRule_reply _
  by_cases setting : command = Config.cmdSetting
  case pos => subst setting; rfl
  by_cases config : command = Config.cmdConfig
  case pos => subst config; rfl
  by_cases discovery : command = Config.cmdDiscovery
  case pos => subst discovery; rfl
  simp only [commandRule, status, event, setting, config, discovery, if_false]
  rfl

theorem onLink_of_mem_notices {r : Result} {o : Output} (h : o ∈ r.notices) : onLink o = false := by
  simp only [Result.notices, List.mem_append, Option.mem_toList, Option.map_eq_some_iff] at h
  rcases h with ⟨_, -, rfl⟩ | ⟨_, -, rfl⟩ <;> rfl

theorem onLink_of_mem_sendOutputs {bytes : List Byte} {o : Output} (h : o ∈ sendOutputs bytes) :
    onLink o = true := by
  simp only [sendOutputs, List.mem_cons, List.mem_map] at h
  rcases h with rfl | rfl | ⟨_, -, rfl⟩ <;> rfl

/-- Of a rule's outputs the reply alone goes to the link. -/
theorem resultOutputs_any_onLink (r : Result) : (resultOutputs r).any onLink = r.reply.isSome := by
  have notices : r.notices.any onLink = false :=
    List.any_eq_false.2 fun o h => by simp [onLink_of_mem_notices h]
  rw [resultOutputs, List.any_append, notices, Bool.false_or]
  cases r.reply <;> rfl

theorem commandRule_reply_isSome_iff (fr : Frame) :
    (commandRule fr).reply.isSome = true ↔ fr.command = 0x33 ∨ fr.command = 0x44 := by
  rw [commandRule_reply]
  split_ifs with setting discovery
  · exact ⟨fun _ => .inl setting, fun _ => rfl⟩
  · exact ⟨fun _ => .inr discovery, fun _ => rfl⟩
  · exact ⟨fun h => absurd h Bool.false_ne_true, fun h => absurd h (not_or.2 ⟨setting, discovery⟩)⟩

/-- The outputs DISPATCH adds, by the frame alone (R158). -/
def dispatchOutputs (f : List Byte) : List Output :=
  match validateFrame f with
  | .ok => resultOutputs (commandRule (decodeFields f))
  | .error code => [.diag (checkDiag code f)]

theorem dispatch_trace (f : List Byte) (s : State) : (dispatch f s).trace = s.trace ++ dispatchOutputs f := by
  rw [dispatchOutputs]
  cases verdict : validateFrame f with
  | ok => rw [dispatch_of_ok verdict, perform_trace]
  | error code => rw [dispatch_of_error verdict, raise_trace]

theorem dispatch_discovered (f : List Byte) (s : State) :
    (dispatch f s).discovered = (s.discovered || decide (validateFrame f = .ok)) := by
  cases verdict : validateFrame f with
  | ok => simp [dispatch_of_ok verdict]
  | error code => simp [dispatch_of_error verdict]

/-- DISPATCH writes neither the assembler nor `last_poll` (R13). -/
theorem dispatch_keeps (f : List Byte) (s : State) :
    (dispatch f s).rxBuf = s.rxBuf ∧ (dispatch f s).rxLen = s.rxLen ∧
      (dispatch f s).lastByteTime = s.lastByteTime ∧ (dispatch f s).lastPoll = s.lastPoll ∧
      (dispatch f s).pending = s.pending ∧ (dispatch f s).returned = s.returned := by
  rcases dispatch_cases f s with ⟨code, -, h⟩ | ⟨-, h⟩ <;> simp [h]

/-- DISPATCH forces the poll for a validated discovery request, and otherwise leaves the flag. -/
theorem dispatch_pollForce (f : List Byte) (s : State) :
    (dispatch f s).pollForce =
      (s.pollForce || (decide (validateFrame f = .ok) && (commandRule (decodeFields f)).force)) := by
  cases verdict : validateFrame f with
  | ok => simp [dispatch_of_ok verdict, Bool.or_comm]
  | error code => simp [dispatch_of_error verdict]

/-- Settles O33: the outputs and the two bits are read off the frame's verdict and its rule. -/
theorem dispatchIsAFunctionOfTheFrame : Obligations.DispatchIsAFunctionOfTheFrame := fun f =>
  ⟨dispatchOutputs f, decide (validateFrame f = .ok),
    decide (validateFrame f = .ok) && (commandRule (decodeFields f)).force, fun s =>
      ⟨dispatch f s, exec_dispatch f s, dispatch_trace f s, dispatch_discovered f s, dispatch_pollForce f s,
        dispatch_keeps f s⟩⟩

/-- Settles O34: the reply of the rule is all that goes to the link, and a dropped frame has none. -/
theorem onlySettingAndDiscoveryAreAnswered : Obligations.OnlySettingAndDiscoveryAreAnswered := by
  intro f s
  refine ⟨dispatch f s, dispatchOutputs f, exec_dispatch f s, dispatch_trace f s, ?_⟩
  rw [dispatchOutputs]
  cases verdict : validateFrame f with
  | ok =>
    obtain ⟨fr, rfl, fields, -⟩ := exists_frame_of_ok verdict
    have command : (frameBytes fr).getD 0 0 = fr.command := rfl
    simp only [resultOutputs_any_onLink, commandRule_reply_isSome_iff, fields, command, true_and]
  | error code => simp [onLink]

/-! ### Dropped frames -/

theorem exec_dispatch_of_error {f : List Byte} {code : CheckError} (verdict : validateFrame f = .error code)
    (s : State) :
    exec (.dispatch f) s = .next { s with trace := s.trace ++ [.diag (checkDiag code f)] } := by
  rw [exec_dispatch, dispatch_of_error verdict]
  rfl

/-- The last three checks are reached by sequences of at least 5 bytes only. -/
theorem long_of_validateFrame {f : List Byte} {v : Verdict} (verdict : validateFrame f = v)
    (later : v ≠ .error .frameTooShort) : 5 ≤ f.length := by
  by_contra short
  exact later (verdict.symm.trans (validateFrame_of_short (Nat.not_le.1 short)))

/-- The two checksums of check 2 differ, and they are the diagnostic's info. -/
theorem exec_dispatch_of_checksumMismatch {f : List Byte} (verdict : validateFrame f = .error .checksumMismatch)
    (s : State) :
    exec (.dispatch f) s = .next { s with trace := s.trace ++
      [.diag (.checksumMismatch (xsum (f.take (f.length - 1))) (f.getD (f.length - 1) 0))] } := by
  have long := long_of_validateFrame verdict (by simp)
  rw [exec_dispatch_of_error verdict, checkDiag, List.dropLast_eq_take, rawByte_eq_getD (by omega) 0]

theorem exec_dispatch_of_sizeMismatch {f : List Byte} (verdict : validateFrame f = .error .sizeMismatch)
    (s : State) :
    exec (.dispatch f) s = .next { s with trace := s.trace ++ [.diag (.sizeMismatch f.length (f.getD 3 0))] } := by
  have long := long_of_validateFrame verdict (by simp)
  rw [exec_dispatch_of_error verdict, checkDiag, rawByte_eq_getD (by omega) 0]

theorem exec_dispatch_of_ignoredSource {f : List Byte} (verdict : validateFrame f = .error .ignoredSource)
    (s : State) :
    exec (.dispatch f) s = .next { s with trace := s.trace ++
      [.diag (.ignoredSource (f.getD 1 0) (f.getD 0 0))] } := by
  have long := long_of_validateFrame verdict (by simp)
  rw [exec_dispatch_of_error verdict, checkDiag, rawByte_eq_getD (show 1 < f.length by omega) 0,
    rawByte_eq_getD (show 0 < f.length by omega) 0]

theorem validateFrame_of_exec {f : List Byte} {s : State} {v : Verdict}
    (h : exec (.validate f) s = .next { s with returned := .verdict v }) : validateFrame f = v := by
  rw [exec_validate] at h
  injection h with h
  exact Returned.verdict.inj (congrArg State.returned h)

/-- Settles O32: check by check. -/
theorem invalidFrameIsDropped : Obligations.InvalidFrameIsDropped := by
  intro f s code h
  have verdict := validateFrame_of_exec h
  cases code with
  | frameTooShort => exact exec_dispatch_of_error verdict s
  | checksumMismatch => exact exec_dispatch_of_checksumMismatch verdict s
  | sizeMismatch => exact exec_dispatch_of_sizeMismatch verdict s
  | ignoredSource => exact exec_dispatch_of_ignoredSource verdict s

/-- The source filter stops every frame the block sends. -/
theorem validateFrame_of_sendable {bytes : List Byte} (h : Sendable bytes) :
    validateFrame bytes = .error .ignoredSource := by
  have ofFrame : ∀ o : OutFrame, sourceAccepted o.command o.source = false →
      validateFrame (frameBytes o.frame) = .error .ignoredSource := fun o stopped =>
    (validateFrame_frameBytes (Countable.of_fits o.fits)).trans (if_neg (by simpa [OutFrame.frame] using stopped))
  rcases sendable_cases h with ⟨target, rfl⟩ | rfl | ⟨sequence, rfl⟩ | ⟨sequence, rfl⟩
  all_goals exact ofFrame _ rfl

/-- Settles O21: an echo gets as far as check 4. -/
theorem echoOfASentFrameIsIgnored : Obligations.EchoOfASentFrameIsIgnored :=
  fun _ s sendable => exec_dispatch_of_ignoredSource (validateFrame_of_sendable sendable) s

/-- Settles O35: replacing one byte makes the XOR of the whole differ from 0. -/
theorem anyOneCorruptedByteIsCaught : Obligations.AnyOneCorruptedByteIsCaught := by
  intro f k b s long right inside other
  have long' : 5 ≤ (f.set k b).length := by rwa [List.length_set]
  have nonempty : f ≠ [] := List.ne_nil_of_length_pos (by omega)
  have nonempty' : f.set k b ≠ [] := List.ne_nil_of_length_pos (by omega)
  have wrong : verifyXsum (f.set k b) ≠ true := by
    rw [ne_eq, verifyXsum_iff_xsum_eq_zero nonempty', xsum_set inside,
      (verifyXsum_iff_xsum_eq_zero nonempty).1 right]
    intro h
    rw [show (0 : Byte) ^^^ (f.getD k 0 ^^^ b) = f.getD k 0 ^^^ b from BitVec.zero_xor] at h
    exact other (BitVec.xor_eq_zero_iff.1 h).symm
  exact ⟨_, _, mt (verifyXsum_iff_getD nonempty').2 wrong,
    exec_dispatch_of_checksumMismatch (validateFrame_of_wrong_checksum long' wrong) s⟩

/-- Settles O36: the joint checksum is right, and the joint length exceeds the first frame's. -/
theorem mergedFramesFailTheSizeCheck : Obligations.MergedFramesFailTheSizeCheck := by
  intro a b s rightA lengthA rightB lengthB
  have nonemptyA : a ≠ [] := List.ne_nil_of_length_pos (by omega)
  have nonemptyB : b ≠ [] := List.ne_nil_of_length_pos (by omega)
  have declared : (a ++ b).getD 3 0 = a.getD 3 0 := List.getD_append _ _ _ _ (by omega)
  have right : verifyXsum (a ++ b) = true := by
    rw [verifyXsum_iff_xsum_eq_zero (by simp [nonemptyA]), xsum_append,
      (verifyXsum_iff_xsum_eq_zero nonemptyA).1 rightA, (verifyXsum_iff_xsum_eq_zero nonemptyB).1 rightB]
    rfl
  have wrong : (a ++ b).length ≠ ((a ++ b).getD 3 0).toNat + 5 := by
    rw [declared, List.length_append]
    omega
  have long : 5 ≤ (a ++ b).length := by
    rw [List.length_append]
    omega
  rw [exec_dispatch_of_sizeMismatch (validateFrame_of_wrong_length long right wrong), declared, List.length_append]

/-- A sequence shorter than it declares, or too short to declare anything, fails one of the first three checks. -/
theorem exists_early_error {f : List Byte} (incomplete : 5 ≤ f.length → f.length ≠ (f.getD 3 0).toNat + 5) :
    ∃ code, validateFrame f = .error code ∧ 2 ≤ (checkDiag code f).code ∧ (checkDiag code f).code ≤ 4 := by
  by_cases long : 5 ≤ f.length
  · by_cases right : verifyXsum f = true
    · exact ⟨_, validateFrame_of_wrong_length long right (incomplete long), Nat.le_of_ble_eq_true rfl,
        Nat.le_of_ble_eq_true rfl⟩
    · exact ⟨_, validateFrame_of_wrong_checksum long right, Nat.le_of_ble_eq_true rfl, Nat.le_of_ble_eq_true rfl⟩
  · exact ⟨_, validateFrame_of_short (Nat.not_le.1 long), Nat.le_of_ble_eq_true rfl, Nat.le_of_ble_eq_true rfl⟩

/-- Settles O37: what is cut off leaves the sequence shorter than it declares. -/
theorem strictPrefixIsDropped : Obligations.StrictPrefixIsDropped := by
  intro f k s asDeclared strict
  have incomplete : 5 ≤ (f.take k).length → (f.take k).length ≠ ((f.take k).getD 3 0).toNat + 5 := by
    rw [List.length_take_of_le strict.le]
    intro long
    have declared : (f.take k).getD 3 0 = f.getD 3 0 := by
      rw [List.getD_eq_getElem?_getD, List.getElem?_take_of_lt (by omega), ← List.getD_eq_getElem?_getD]
    rw [declared]
    omega
  obtain ⟨code, verdict, low, high⟩ := exists_early_error incomplete
  exact ⟨checkDiag code (f.take k), exec_dispatch_of_error verdict s, low, high⟩

end Sys2Proof.Proofs
end

section
/-! The assembler: what one byte and what a run of bytes do to it, overflows included
(spec/41_frame_assembler.md R100, R101, R103). -/

namespace Sys2Proof.Proofs

open Sys2Proof Sys2Proof.Machine Sys2Proof.Laws

@[simp] theorem length_heldBytes (s : State) : (heldBytes s).length = s.rxLen.val := by
  simp [heldBytes]

/-! ### FEED -/

theorem exec_feed (b : Byte) (now : Time) (s : State) : exec (.feed b now) s = .next (feed b now s) := rfl

section
variable (b : Byte) (now : Time) (s : State)

@[simp] theorem feed_rxBuf : (feed b now s).rxBuf = s.rxBuf.write s.rxLen b := by
  rcases feed_cases b now s with ⟨_, h⟩ | ⟨_, h⟩ <;> rw [h] <;> rfl

@[simp] theorem feed_lastByteTime : (feed b now s).lastByteTime = now := by
  rcases feed_cases b now s with ⟨_, h⟩ | ⟨_, h⟩ <;> rw [h] <;> rfl

/-- The length advances, and starts again from 0 when it reaches the capacity. -/
theorem feed_rxLen : (feed b now s).rxLen.val = (s.rxLen.val + 1) % 40 := by
  rcases feed_cases b now s with ⟨below, h⟩ | ⟨full, h⟩ <;> rw [h]
  · exact (Nat.mod_eq_of_lt below).symm
  · rw [full]
    rfl

/-- The one output is the overflow's, when the length reaches the capacity. -/
theorem feed_trace :
    (feed b now s).trace = s.trace ++ List.replicate ((s.rxLen.val + 1) / 40) (.diag (.frameOverflow 40)) := by
  rcases feed_cases b now s with ⟨below, h⟩ | ⟨full, h⟩ <;> rw [h]
  · rw [Nat.div_eq_of_lt below]
    exact (List.append_nil _).symm
  · rw [full]
    rfl

/-- FEED writes the assembler and the trace, and nothing else. -/
theorem feed_frame :
    { feed b now s with
      rxBuf := s.rxBuf, rxLen := s.rxLen, lastByteTime := s.lastByteTime, trace := s.trace } = s := by
  rcases feed_cases b now s with ⟨_, h⟩ | ⟨_, h⟩ <;> rw [h] <;> rfl

/-- The bytes held are the last of those held before and the new one, as many as are left over. -/
theorem heldBytes_feed :
    heldBytes (feed b now s) = (heldBytes s ++ [b]).drop (40 * ((s.rxLen.val + 1) / 40)) := by
  have stored : (s.rxBuf.write s.rxLen b).readBytes 0 (s.rxLen.val + 1) = heldBytes s ++ [b] := by
    have := readBytes_write_succ s.rxBuf 0 s.rxLen b
    rwa [Nat.zero_add] at this
  rw [← stored, heldBytes, feed_rxBuf, feed_rxLen]
  have bound : s.rxLen.val < 40 := s.rxLen.isLt
  by_cases full : s.rxLen.val + 1 = 40
  · rw [full, List.drop_of_length_le (by simp)]
    rfl
  · rw [Nat.mod_eq_of_lt (by omega), Nat.div_eq_of_lt (by omega)]
    rfl

end

/-- Settles O38: below capacity the length advances by one and nothing overflows. -/
theorem feedStoresTheByte : Obligations.FeedStoresTheByte := by
  intro b now s notFull
  have bound : s.rxLen.val < 40 := s.rxLen.isLt
  refine ⟨feed b now s, exec_feed b now s, ?length, feed_lastByteTime b now s, ?same, fun a other => ?others, ?frame⟩
  case length => rw [feed_rxLen, Nat.mod_eq_of_lt (by omega)]
  case same => rw [feed_rxBuf, read_write_same]
  case others => rw [feed_rxBuf, read_write_other _ other]
  case frame =>
    have silent : (feed b now s).trace = s.trace := by
      rw [feed_trace, Nat.div_eq_of_lt (by omega), List.replicate_zero, List.append_nil]
    have frame := feed_frame b now s
    rwa [← silent] at frame

/-- Settles O39: at 39 the byte completes the capacity; the rest of a TICK starts from the state it leaves. -/
theorem fortiethByteOverflows : Obligations.FortiethByteOverflows := by
  intro b now s full
  refine ⟨feed b now s, exec_feed b now s, ?length, feed_lastByteTime b now s, ?trace, ?same, fun a other => ?others,
    feed_frame b now s, fun rest => rfl⟩
  case length => rw [feed_rxLen, full]
  case trace => rw [feed_trace, full]; rfl
  case same => rw [feed_rxBuf, full, read_write_same]
  case others => rw [feed_rxBuf, full, read_write_other _ other]

/-! ### All bytes of a TICK -/

section
variable (now : Time) (bytes : List Byte) (s : State)

theorem feedAll_rxLen : (feedAll now bytes s).rxLen.val = (s.rxLen.val + bytes.length) % 40 := by
  induction bytes generalizing s with
  | nil => exact (Nat.mod_eq_of_lt s.rxLen.isLt).symm
  | cons b rest ih =>
    rw [feedAll, ih, feed_rxLen, List.length_cons]
    omega

theorem feedAll_trace :
    (feedAll now bytes s).trace =
      s.trace ++ List.replicate ((s.rxLen.val + bytes.length) / 40) (.diag (.frameOverflow 40)) := by
  induction bytes generalizing s with
  | nil =>
    rw [List.length_nil, Nat.add_zero, Nat.div_eq_of_lt s.rxLen.isLt]
    exact (List.append_nil _).symm
  | cons b rest ih =>
    have count : (s.rxLen.val + (rest.length + 1)) / 40 =
        (s.rxLen.val + 1) / 40 + ((s.rxLen.val + 1) % 40 + rest.length) / 40 := by omega
    rw [feedAll, ih, feed_trace, feed_rxLen, List.length_cons, count, List.replicate_add, List.append_assoc]

theorem feedAll_frame :
    { feedAll now bytes s with
      rxBuf := s.rxBuf, rxLen := s.rxLen, lastByteTime := s.lastByteTime, trace := s.trace } = s := by
  induction bytes generalizing s with
  | nil => rfl
  | cons b rest ih =>
    exact (congrArg (fun u : State => { u with
      rxBuf := s.rxBuf, rxLen := s.rxLen, lastByteTime := s.lastByteTime, trace := s.trace })
      (ih (feed b now s))).trans (feed_frame b now s)

/-- The bytes held are the last of those held before and those brought, as many as are left over. -/
theorem heldBytes_feedAll :
    heldBytes (feedAll now bytes s) =
      (heldBytes s ++ bytes).drop (40 * ((s.rxLen.val + bytes.length) / 40)) := by
  induction bytes generalizing s with
  | nil =>
    rw [List.length_nil, Nat.add_zero, Nat.div_eq_of_lt s.rxLen.isLt]
    exact (List.append_nil _).symm
  | cons b rest ih =>
    have whole : 40 * ((s.rxLen.val + 1) / 40) ≤ (heldBytes s ++ [b]).length := by
      simp only [List.length_append, length_heldBytes, List.length_singleton]
      omega
    have count : 40 * ((s.rxLen.val + (rest.length + 1)) / 40) =
        40 * ((s.rxLen.val + 1) / 40) + 40 * (((s.rxLen.val + 1) % 40 + rest.length) / 40) := by omega
    rw [feedAll, ih, feed_rxLen, heldBytes_feed, List.length_cons, count, ← List.drop_append_of_le_length whole,
      List.drop_drop, List.append_assoc, List.singleton_append]

/-- Nothing is stored above the bytes that arrive. -/
theorem feedAll_read_above {a : Nat} (above : min 40 (s.rxLen.val + bytes.length) ≤ a) :
    (feedAll now bytes s).rxBuf.read a = s.rxBuf.read a := by
  induction bytes generalizing s with
  | nil => rfl
  | cons b rest ih =>
    have bound : s.rxLen.val < 40 := s.rxLen.isLt
    rw [List.length_cons] at above
    have later : min 40 ((feed b now s).rxLen.val + rest.length) ≤ a := by
      rw [feed_rxLen]
      omega
    rw [feedAll, ih _ later, feed_rxBuf, read_write_other _ (by omega)]

theorem feedAll_lastByteTime {bytes : List Byte} (some : bytes ≠ []) :
    (feedAll now bytes s).lastByteTime = now := by
  induction bytes generalizing s with
  | nil => exact absurd rfl some
  | cons b rest ih =>
    cases rest with
    | nil => exact feed_lastByteTime b now s
    | cons b' rest => exact ih (feed b now s) (by simp)

@[simp] theorem feedAll_discovered : (feedAll now bytes s).discovered = s.discovered :=
  (congrArg State.discovered (feedAll_frame now bytes s) :)

@[simp] theorem feedAll_lastPoll : (feedAll now bytes s).lastPoll = s.lastPoll :=
  (congrArg State.lastPoll (feedAll_frame now bytes s) :)

@[simp] theorem feedAll_pollForce : (feedAll now bytes s).pollForce = s.pollForce :=
  (congrArg State.pollForce (feedAll_frame now bytes s) :)

@[simp] theorem feedAll_txBuf : (feedAll now bytes s).txBuf = s.txBuf :=
  (congrArg State.txBuf (feedAll_frame now bytes s) :)

@[simp] theorem feedAll_txLen : (feedAll now bytes s).txLen = s.txLen :=
  (congrArg State.txLen (feedAll_frame now bytes s) :)

@[simp] theorem feedAll_pending : (feedAll now bytes s).pending = s.pending :=
  (congrArg State.pending (feedAll_frame now bytes s) :)

@[simp] theorem feedAll_returned : (feedAll now bytes s).returned = s.returned :=
  (congrArg State.returned (feedAll_frame now bytes s) :)

end

end Sys2Proof.Proofs
end

section
/-! The scheduler: the poll timer, and TICK as its three phases (spec/45_scheduler_tick.md R190 to R194). -/

namespace Sys2Proof.Proofs

open Sys2Proof Sys2Proof.Machine Sys2Proof.Laws Sys2Proof.Safety

/-! ### SCHED.POLL -/

theorem exec_schedPoll (now : Time) (s : State) : exec (.schedPoll now) s = .next (schedPoll now s) := rfl

theorem schedPoll_of_due {now : Time} {s : State} (due : pollDue now s = true) :
    schedPoll now s = send statusRequestFrame { s with lastPoll := now, pollForce := false } := by
  rw [schedPoll, if_pos due]
  rfl

theorem schedPoll_of_not_due {now : Time} {s : State} (notDue : pollDue now s = false) : schedPoll now s = s := by
  rw [schedPoll, notDue, if_neg Bool.false_ne_true]

theorem pollDue_of_undiscovered {now : Time} {s : State} (undiscovered : s.discovered = false) :
    pollDue now s = false := by
  rw [pollDue, undiscovered, Bool.false_and]

/-- The outputs of the poll timer: one status request when it is due. -/
def pollOutputs (now : Time) (s : State) : List Output :=
  if pollDue now s then sendOutputs (frameBytes statusRequestFrame.frame) else []

section
variable (now : Time) (s : State)

@[simp] theorem schedPoll_trace : (schedPoll now s).trace = s.trace ++ pollOutputs now s := by
  rw [pollOutputs]
  rcases schedPoll_cases now s with ⟨due, h⟩ | ⟨notDue, h⟩
  · rw [h, if_pos due, send_trace]
  · rw [h, notDue, if_neg Bool.false_ne_true, List.append_nil]

/-- SCHED.POLL writes the poll timer, the outgoing frame and the trace, and nothing else. -/
theorem schedPoll_frame :
    { schedPoll now s with
      lastPoll := s.lastPoll, pollForce := s.pollForce, txBuf := s.txBuf, txLen := s.txLen, trace := s.trace } =
      s := by
  rcases schedPoll_cases now s with ⟨-, h⟩ | ⟨-, h⟩
  · rw [h]
    rfl
  · rw [h]

@[simp] theorem schedPoll_rxBuf : (schedPoll now s).rxBuf = s.rxBuf :=
  (congrArg State.rxBuf (schedPoll_frame now s) :)

@[simp] theorem schedPoll_rxLen : (schedPoll now s).rxLen = s.rxLen :=
  (congrArg State.rxLen (schedPoll_frame now s) :)

@[simp] theorem schedPoll_lastByteTime : (schedPoll now s).lastByteTime = s.lastByteTime :=
  (congrArg State.lastByteTime (schedPoll_frame now s) :)

@[simp] theorem schedPoll_discovered : (schedPoll now s).discovered = s.discovered :=
  (congrArg State.discovered (schedPoll_frame now s) :)

@[simp] theorem schedPoll_pending : (schedPoll now s).pending = s.pending :=
  (congrArg State.pending (schedPoll_frame now s) :)

@[simp] theorem schedPoll_returned : (schedPoll now s).returned = s.returned :=
  (congrArg State.returned (schedPoll_frame now s) :)

end

/-- Settles O45: the two clauses are the two values of `pollDue`. -/
theorem statusRequestIsSentExactlyWhenDue : Obligations.StatusRequestIsSentExactlyWhenDue := by
  intro now s
  refine ⟨fun discovered reason => ⟨schedPoll now s, exec_schedPoll now s, ?sent⟩, fun quiet => ?idle⟩
  case sent =>
    rw [schedPoll_of_due ((pollDue_iff now s).2 ⟨discovered, reason⟩), ← frameBytes_statusRequest]
    exact sent_send _ _
  case idle =>
    have notDue : pollDue now s = false := by
      rw [← Bool.not_eq_true, pollDue_iff]
      rintro ⟨discovered, forced | late⟩
      · simp [discovered, forced] at quiet
      · rw [discovered] at quiet
        rcases quiet with h | ⟨-, early⟩
        · cases h
        · omega
    rw [exec_schedPoll, schedPoll_of_not_due notDue]

/-! ### TICK -/

theorem exec_tick (now : Time) (bytes : List Byte) (s : State) :
    exec (.tick now bytes) s = .next (tick now bytes s) := rfl

theorem tick_nil (now : Time) (s : State) : tick now [] s = schedPoll now (pollAndDispatch now s) := rfl

theorem pollAndDispatch_of_due {now : Time} {s : State} (due : frameDue now s = true) :
    pollAndDispatch now s = dispatch (heldBytes s) { s with rxLen := 0 } :=
  ((pollAndDispatch_cases now s).resolve_right fun h => by simp [due] at h).2

theorem pollAndDispatch_of_not_due {now : Time} {s : State} (notDue : frameDue now s = false) :
    pollAndDispatch now s = s :=
  ((pollAndDispatch_cases now s).resolve_left fun h => by simp [notDue] at h).2

/-- No silence has passed since a byte that came now. -/
theorem frameDue_of_lastByteTime {now : Time} {s : State} (h : s.lastByteTime = now) : frameDue now s = false := by
  rw [frameDue_eq_false_iff, h, BitVec.sub_self]
  exact .inr (Nat.zero_le _)

/-- A TICK that brings bytes delivers no frame (R103). -/
theorem tick_of_bytes {now : Time} {bytes : List Byte} (some : bytes ≠ []) (s : State) :
    tick now bytes s = schedPoll now (feedAll now bytes s) := by
  rw [tick, pollAndDispatch_of_not_due (frameDue_of_lastByteTime (feedAll_lastByteTime now s some))]

theorem pollDue_feedAll (now : Time) (bytes : List Byte) (s : State) :
    pollDue now (feedAll now bytes s) = pollDue now s := by
  simp only [pollDue, feedAll_discovered, feedAll_pollForce, feedAll_lastPoll]

theorem pollOutputs_feedAll (now : Time) (bytes : List Byte) (s : State) :
    pollOutputs now (feedAll now bytes s) = pollOutputs now s := by
  rw [pollOutputs, pollDue_feedAll, pollOutputs]

theorem pollOutputs_onLink (now : Time) (s : State) : (pollOutputs now s).all onLink = true := by
  rw [List.all_eq_true]
  intro o h
  rw [pollOutputs] at h
  split_ifs at h
  · exact onLink_of_mem_sendOutputs h
  · cases h

/-- The trace after a TICK that brings bytes: the overflows, then the poll timer's outputs. -/
theorem tick_of_bytes_trace {now : Time} {bytes : List Byte} (some : bytes ≠ []) (s : State) :
    (tick now bytes s).trace = s.trace ++
      List.replicate ((s.rxLen.val + bytes.length) / 40) (.diag (.frameOverflow 40)) ++ pollOutputs now s := by
  rw [tick_of_bytes some, schedPoll_trace, pollOutputs_feedAll, feedAll_trace]

theorem tick_of_bytes_rxLen {now : Time} {bytes : List Byte} (some : bytes ≠ []) (s : State) :
    (tick now bytes s).rxLen.val = (s.rxLen.val + bytes.length) % 40 := by
  rw [tick_of_bytes some, schedPoll_rxLen, feedAll_rxLen]

theorem tick_of_bytes_lastByteTime {now : Time} {bytes : List Byte} (some : bytes ≠ []) (s : State) :
    (tick now bytes s).lastByteTime = now := by
  rw [tick_of_bytes some, schedPoll_lastByteTime, feedAll_lastByteTime now s some]

theorem heldBytes_tick_of_bytes {now : Time} {bytes : List Byte} (some : bytes ≠ []) (s : State) :
    heldBytes (tick now bytes s) =
      (heldBytes s ++ bytes).drop (40 * ((s.rxLen.val + bytes.length) / 40)) := by
  rw [tick_of_bytes some, ← heldBytes_feedAll now, heldBytes, schedPoll_rxBuf, schedPoll_rxLen, heldBytes]

/-- The second state, with the fields that a TICK without a delivery writes as the first has them. -/
def withTickFields (s u : State) : State :=
  { u with
    rxBuf := s.rxBuf, rxLen := s.rxLen, lastByteTime := s.lastByteTime, trace := s.trace
    lastPoll := s.lastPoll, pollForce := s.pollForce, txBuf := s.txBuf, txLen := s.txLen }

/-- Such a TICK writes the assembler, the poll timer, the outgoing frame and the trace, and nothing else. -/
theorem withTickFields_tick_of_bytes {now : Time} {bytes : List Byte} (some : bytes ≠ []) (s : State) :
    withTickFields s (tick now bytes s) = s :=
  calc withTickFields s (tick now bytes s)
      = withTickFields s (schedPoll now (feedAll now bytes s)) := by rw [tick_of_bytes some]
    _ = withTickFields s (feedAll now bytes s) :=
      (congrArg (withTickFields s) (schedPoll_frame now (feedAll now bytes s)) :)
    _ = s := (congrArg (withTickFields s) (feedAll_frame now bytes s) :)

/-- Settles O41: the bytes are fed, no frame is delivered, and the poll timer adds its outputs. -/
theorem bytesOverflowByForties : Obligations.BytesOverflowByForties := by
  intro now bytes s some
  refine ⟨tick now bytes s, pollOutputs now s, exec_tick now bytes s, tick_of_bytes_rxLen some s, ?held,
    fun a above => ?above, tick_of_bytes_lastByteTime some s, tick_of_bytes_trace some s, pollOutputs_onLink now s,
    ?frame, fun undiscovered => ?undiscovered⟩
  case held =>
    rw [← heldBytes_eq_map_read, ← heldBytes_eq_map_read]
    exact heldBytes_tick_of_bytes some s
  case above => rw [tick_of_bytes some, schedPoll_rxBuf, feedAll_read_above now bytes s above]
  case frame =>
    exact withTickFields_tick_of_bytes some s
  case undiscovered =>
    have notDue := pollDue_of_undiscovered (now := now) undiscovered
    rw [pollOutputs, notDue, tick_of_bytes some, schedPoll_of_not_due (by rwa [pollDue_feedAll])]
    exact ⟨rfl, feedAll_lastPoll now bytes s, feedAll_pollForce now bytes s, feedAll_txBuf now bytes s,
      feedAll_txLen now bytes s⟩

theorem pollOutputs_eq (now : Time) (s : State) :
    pollOutputs now s =
      if s.discovered = true ∧ (s.pollForce = true ∨ 1800000 < (now - s.lastPoll).toNat) then
        [.wake .asserted, .wake .deasserted] ++ [0x11, 0xA0, 0x00, 0x00, 0xB1].map Output.txByte
      else [] := by
  rw [pollOutputs, frameBytes_statusRequest]
  exact if_congr (pollDue_iff now s) rfl rfl

/-- Settles O42: the poll timer sees the flags and times that the bytes have left alone. -/
theorem tickWithBytesDeliversNoFrame : Obligations.TickWithBytesDeliversNoFrame := by
  intro now bytes s some
  refine ⟨tick now bytes s, exec_tick now bytes s, ?discovered, ?returned, tick_of_bytes_rxLen some s, ?trace⟩
  case discovered => rw [tick_of_bytes some, schedPoll_discovered, feedAll_discovered]
  case returned => rw [tick_of_bytes some, schedPoll_returned, feedAll_returned]
  case trace => rw [tick_of_bytes_trace some, pollOutputs_eq]

/-- Settles O44: with bytes by the recursion of the first phase, without by the two cases of POLL. -/
theorem tickIsFeedPollDispatchSchedule : Obligations.TickIsFeedPollDispatchSchedule := by
  refine ⟨fun now b bytes s => ⟨feed b now s, tick now bytes (feed b now s), rfl, rfl, rfl⟩, fun now s => ?_⟩
  refine ⟨giveBack (.polled (poll now s).1) (poll now s).2, tick now [] s, (poll now s).1, exec_poll now s,
    giveBack_returned _ _, exec_tick now [] s, fun none => ?none, fun f delivers => ?delivers⟩
  case none =>
    rcases poll_cases now s with ⟨-, h⟩ | ⟨notDue, -⟩
    · simp [h] at none
    · rw [exec_schedPoll, tick_nil, pollAndDispatch_of_not_due notDue]
  case delivers =>
    rcases poll_cases now s with ⟨due, h⟩ | ⟨-, h⟩
    · rw [h] at delivers
      cases delivers
      refine ⟨dispatch (heldBytes s) { s with rxLen := 0 }, ?_, ?_⟩
      · rw [h]
        rfl
      · rw [exec_schedPoll, tick_nil, pollAndDispatch_of_due due]
    · simp [h] at delivers

/-! ### Undiscovered blocks -/

/-- Phase 2 discovers the peripheral exactly when it delivers a valid frame (R16). -/
theorem pollAndDispatch_discovered (now : Time) (s : State) :
    (pollAndDispatch now s).discovered =
      (s.discovered || (frameDue now s && decide (validateFrame (heldBytes s) = .ok))) := by
  rcases pollAndDispatch_cases now s with ⟨due, h⟩ | ⟨notDue, h⟩
  · rw [h, dispatch_discovered, due, Bool.true_and]
  · rw [h, notDue, Bool.false_and, Bool.or_false]

theorem tick_discovered (now : Time) (bytes : List Byte) (s : State) :
    (tick now bytes s).discovered = (s.discovered || (frameDue now (feedAll now bytes s) &&
      decide (validateFrame (heldBytes (feedAll now bytes s)) = .ok))) := by
  rw [tick, schedPoll_discovered, pollAndDispatch_discovered, feedAll_discovered]

/-- A block that phase 2 leaves undiscovered has dropped what it was given, or was given nothing. -/
theorem pollAndDispatch_of_undiscovered {now : Time} {s : State}
    (undiscovered : (pollAndDispatch now s).discovered = false) :
    ∃ (n : Fin Config.rxCap) (diags : List Diag),
      pollAndDispatch now s = emit (diags.map .diag) { s with rxLen := n } := by
  rcases pollAndDispatch_cases now s with ⟨-, h⟩ | ⟨-, h⟩
  · rcases dispatch_cases (heldBytes s) { s with rxLen := 0 } with ⟨code, -, h'⟩ | ⟨-, h'⟩
    · exact ⟨0, [checkDiag code (heldBytes s)], by rw [h, h']; rfl⟩
    · simp [h, h'] at undiscovered
  · exact ⟨s.rxLen, [], by rw [h]; exact (emit_nil s).symm⟩

/-- Settles O46: an undiscovered end means that only bytes were stored and diagnostics made. -/
theorem undiscoveredTickIsSilent : Obligations.UndiscoveredTickIsSilent := by
  intro now bytes s t h undiscovered
  cases h
  rw [tick, schedPoll_discovered] at undiscovered
  obtain ⟨n, diags, h⟩ := pollAndDispatch_of_undiscovered undiscovered
  have before : s.discovered = false := by simpa [h] using undiscovered
  rw [tick, schedPoll_of_not_due (pollDue_of_undiscovered undiscovered), h]
  refine ⟨before, feedAll_lastPoll now bytes s, feedAll_txBuf now bytes s, feedAll_txLen now bytes s,
    List.replicate ((s.rxLen.val + bytes.length) / 40) (.diag (.frameOverflow 40)) ++ diags.map .diag, ?_, ?_⟩
  · rw [emit_trace, feedAll_trace, List.append_assoc]
  · simp [onLink]

/-! ### The delivery of a discovery request -/

/-- Settles O47: phase 2 answers the request and forces the poll, which phase 3 then finds due. -/
theorem discoveryTickSendsReplyThenStatusRequest : Obligations.DiscoveryTickSendsReplyThenStatusRequest := by
  intro now sequence payload s held silent
  rw [← heldBytes_eq_map_read, encode_of_frame? rfl] at held
  have length : s.rxLen.val = payload.length + 5 := by
    rw [← length_heldBytes, held, length_frameBytes, Nat.add_comm]
  have countable : Countable ⟨Config.cmdDiscovery, Config.srcPeriph, sequence, payload⟩ := by
    have bound : s.rxLen.val < 40 := s.rxLen.isLt
    show payload.length < 256
    omega
  have due : frameDue now s = true := (frameDue_iff now s).2 ⟨by omega, silent⟩
  have verdict := validateFrame_frameBytes countable
  have answered : pollAndDispatch now s = send (discoveryReplyFrame sequence)
      { s with
        rxLen := 0, discovered := true, pollForce := true, trace := s.trace ++ [.event .discoveryRequest] } := by
    rw [pollAndDispatch_of_due due, held, dispatch_of_ok verdict, decodeFields_frameBytes countable]
    exact perform_discoveryRequested rfl _
  refine ⟨tick now [] s, send (discoveryReplyFrame sequence)
    { s with
      rxLen := 0, discovered := true, lastPoll := now, pollForce := false
      trace := s.trace ++ [.event .discoveryRequest] }, exec_tick now [] s, ?reply, ?request⟩
  case reply =>
    rw [← frameBytes_discoveryReply]
    exact sent_send _ _
  case request =>
    rw [tick_nil, answered, schedPoll_of_due rfl, ← frameBytes_statusRequest]
    exact sent_send _ _

/-! ### Time -/

/-- Both timestamps moved by the same amount. -/
def shiftTimes (shift : Time) (s : State) : State :=
  { s with lastByteTime := s.lastByteTime + shift, lastPoll := s.lastPoll + shift }

section
variable (now shift : Time) (s : State)

theorem feed_shiftTimes (b : Byte) :
    feed b (now + shift) (shiftTimes shift s) = shiftTimes shift (feed b now s) := by
  by_cases full : s.rxLen.val + 1 = Config.rxCap
  · have full' : (shiftTimes shift s).rxLen.val + 1 = Config.rxCap := full
    rw [feed, dif_pos full', feed, dif_pos full]
    rfl
  · have notFull' : ¬ (shiftTimes shift s).rxLen.val + 1 = Config.rxCap := full
    rw [feed, dif_neg notFull', feed, dif_neg full]
    rfl

theorem feedAll_shiftTimes (bytes : List Byte) :
    feedAll (now + shift) bytes (shiftTimes shift s) = shiftTimes shift (feedAll now bytes s) := by
  induction bytes generalizing s with
  | nil => rfl
  | cons b rest ih => rw [feedAll, feed_shiftTimes, ih, feedAll]

theorem elapsed_shift (since : Time) : elapsed (now + shift) (since + shift) = elapsed now since := by
  rw [elapsed, add_sub_add_right_eq_sub, elapsed]

theorem frameDue_shiftTimes : frameDue (now + shift) (shiftTimes shift s) = frameDue now s :=
  congrArg (fun silence => decide (0 < s.rxLen.val) && decide (Config.tFrame < silence))
    (elapsed_shift now shift s.lastByteTime)

theorem pollDue_shiftTimes : pollDue (now + shift) (shiftTimes shift s) = pollDue now s :=
  congrArg (fun interval => s.discovered && (s.pollForce || decide (Config.tPoll < interval)))
    (elapsed_shift now shift s.lastPoll)

theorem perform_shiftTimes (r : Result) :
    perform r (shiftTimes shift s) = shiftTimes shift (perform r s) := by
  obtain ⟨diag, event, reply, force⟩ := r
  cases reply <;> cases force <;> rfl

theorem dispatch_shiftTimes (f : List Byte) :
    dispatch f (shiftTimes shift s) = shiftTimes shift (dispatch f s) := by
  rw [dispatch, dispatch]
  cases validateFrame f with
  | ok => exact perform_shiftTimes shift s _
  | error code => rfl

theorem pollAndDispatch_shiftTimes :
    pollAndDispatch (now + shift) (shiftTimes shift s) = shiftTimes shift (pollAndDispatch now s) := by
  cases due : frameDue now s with
  | true =>
    rw [pollAndDispatch_of_due due, pollAndDispatch_of_due (by rwa [frameDue_shiftTimes])]
    exact dispatch_shiftTimes shift { s with rxLen := 0 } (heldBytes s)
  | false => rw [pollAndDispatch_of_not_due due, pollAndDispatch_of_not_due (by rwa [frameDue_shiftTimes])]

theorem schedPoll_shiftTimes :
    schedPoll (now + shift) (shiftTimes shift s) = shiftTimes shift (schedPoll now s) := by
  cases due : pollDue now s with
  | true =>
    rw [schedPoll_of_due due, schedPoll_of_due (by rwa [pollDue_shiftTimes])]
    rfl
  | false => rw [schedPoll_of_not_due due, schedPoll_of_not_due (by rwa [pollDue_shiftTimes])]

theorem tick_shiftTimes (bytes : List Byte) :
    tick (now + shift) bytes (shiftTimes shift s) = shiftTimes shift (tick now bytes s) := by
  rw [tick, feedAll_shiftTimes, pollAndDispatch_shiftTimes, schedPoll_shiftTimes, tick]

end

/-- Settles O48: phase by phase, the times are only stored and subtracted. -/
theorem tickSeesOnlyTimeDifferences : Obligations.TickSeesOnlyTimeDifferences := fun now shift bytes s =>
  ⟨tick now bytes s, exec_tick now bytes s, congrArg _ (tick_shiftTimes now shift s bytes)⟩

end Sys2Proof.Proofs
end

section
/-! Steps: which instruction the oldest pending line stands for, and what each kind of instruction does
(spec/10_state.md R24, spec/20_memory.md R49). -/

namespace Sys2Proof.Proofs

open Sys2Proof Sys2Proof.Machine Sys2Proof.Laws Sys2Proof.Safety

/-! ### Taking a line -/

theorem step_of_idle {s : State} (idle : s.pending = []) : step s = .next s := by
  rw [step, idle]

theorem step_of_pending {s : State} {line : Line} {rest : List Line} (pending : s.pending = line :: rest) :
    step s = exec line.instr (takeLine rest s) := by
  rw [step, pending]

theorem instr_of_decodes {raw : List Byte} {i : Instr} (decodes : decodeFrame raw = .ok i) :
    (Line.literal raw).instr = i := by
  rw [Line.instr, decodes]

theorem instr_of_rejected {raw : List Byte} {reject : Reject} (rejected : decodeFrame raw = .error reject) :
    (Line.literal raw).instr = .dispatch raw := by
  rw [Line.instr, rejected]

theorem decodeFrame_of_decodeTableWord {nbits w : Nat} {i : Instr} (h : decodeTableWord nbits w = some i) :
    decodeFrame (tableFrame (w % 2 ^ nbits)) = .ok i := by
  rw [decodeTableWord] at h
  cases decodes : decodeFrame (tableFrame (w % 2 ^ nbits)) with
  | ok j =>
    rw [decodes] at h
    cases h
    rfl
  | error reject =>
    rw [decodes] at h
    cases h

/-- Settles O5: by the form of the oldest line; a fetched table word is a literal line. -/
theorem stepRunsThePendingLine : Obligations.StepRunsThePendingLine := by
  refine ⟨fun s idle => step_of_idle idle, fun s i rest pending => step_of_pending pending,
    fun s raw i rest pending decodes => ?literal, fun s nbits w i fetched => ?fetched⟩
  case literal =>
    rw [step_of_pending pending, instr_of_decodes decodes]
    rfl
  case fetched =>
    have pending : (s.withFetchWord nbits w).pending = .literal (tableFrame (w % 2 ^ nbits)) :: s.pending := rfl
    rw [step_of_pending pending, instr_of_decodes (decodeFrame_of_decodeTableWord fetched)]
    rfl

/-- Bytes rejected for a failed check fail that check of VALIDATE. -/
theorem validateFrame_of_rejected {raw : List Byte} {code : CheckError}
    (rejected : decodeFrame raw = .error (.check code)) : validateFrame raw = .error code := by
  rw [decodeFrame] at rejected
  split at rejected
  case h_1 =>
    split_ifs at rejected
    cases rejected
  case h_2 ignored =>
    split at rejected
    · cases rejected
    · cases rejected
      exact ignored
  case h_3 verdict =>
    cases rejected
    exact verdict

/-- Settles O6: such bytes are dispatched, and dropped by the check they fail. -/
theorem undecodableBytesAreDropped : Obligations.UndecodableBytesAreDropped := by
  intro s raw rest code pending rejected
  refine ⟨checkDiag code raw, ?_, by cases code <;> rfl⟩
  rw [step_of_pending pending, instr_of_rejected rejected,
    exec_dispatch_of_error (validateFrame_of_rejected rejected)]
  rfl

/-! ### What an instruction does, by kind -/

/-- The instruction always answers a next state, by the given function of the state; and what its kind says of the
outputs and of what it owns (R13). -/
inductive Does : Instr → (State → State) → Prop
  /-- A received row performs its rule (R144 to R157). -/
  | received {i : Instr} {r : Result} (isRow : i.isRx = true) (runs : ∀ s, exec i s = .next (perform r s))
      (unanswered : writesOutgoing i = false → r.reply = none)
      (unforced : writesPollForce i = false → r.force = false) : Does i (perform r)
  /-- A sent row, and LOCKREQ, send a listed frame (R174 to R177). -/
  | sent {i : Instr} {o : OutFrame} (notRow : i.isRx = false) (owns : writesOutgoing i = true)
      (runs : ∀ s, exec i s = .next (send o s)) (listed : Sendable (frameBytes o.frame)) : Does i (send o)
  /-- An operation without state gives its value back (entry 3). -/
  | valued {i : Instr} {v : Returned} (notRow : i.isRx = false) (owns : returnsValue i = true)
      (runs : ∀ s, exec i s = .next (giveBack v s)) : Does i (giveBack v)
  | reset : Does .reset resetBlock
  | tick (now : Time) (bytes : List Byte) : Does (.tick now bytes) (tick now bytes)
  | feed (b : Byte) (now : Time) : Does (.feed b now) (feed b now)
  | poll (now : Time) : Does (.poll now) fun s => giveBack (.polled (poll now s).1) (poll now s).2
  | dispatch (f : List Byte) : Does (.dispatch f) (dispatch f)
  | build (o : OutFrame) : Does (.build o.command o.source o.sequence o.payload) fun s =>
      giveBack (.built (frameBytes o.frame)) (build o s)
  | transmit : Does .transmit transmit
  | schedPoll (now : Time) : Does (.schedPoll now) (schedPoll now)

theorem Does.exec_eq {i : Instr} {g : State → State} (h : Does i g) (s : State) : exec i s = .next (g s) := by
  cases h with
  | received _ runs => exact runs s
  | sent _ _ runs => exact runs s
  | valued _ _ runs => exact runs s
  | build o => exact exec_build_of_fits o s
  | reset | tick | feed | poll | dispatch | transmit | schedPoll => rfl

/-- A received row whose rule asks for no reply and no forced poll. -/
theorem exists_does_of_unanswered {i : Instr} {r : Result} (isRow : i.isRx = true)
    (runs : ∀ s, exec i s = .next (perform r s)) (noReply : r.reply = none) (noForce : r.force = false) :
    ∃ g, Does i g :=
  ⟨_, .received isRow runs (fun _ => noReply) (fun _ => noForce)⟩

/-- Every instruction but a BUILD that cannot be encoded does something in every state. -/
theorem does_or_overlong (i : Instr) :
    (∃ g, Does i g) ∨ ∃ (command source sequence : Byte) (payload : List Byte),
      i = .build command source sequence payload ∧ 35 < payload.length := by
  cases i with
  | statusRpt alt sequence payload =>
    exact .inl (exists_does_of_unanswered (by cases alt <;> rfl) (exec_statusRpt alt sequence payload) rfl rfl)
  | evtJam sequence rest => exact .inl (exists_does_of_unanswered rfl (exec_evtJam sequence rest) rfl rfl)
  | evtPinUnlock sequence rest => exact .inl (exists_does_of_unanswered rfl (exec_evtPinUnlock sequence rest) rfl rfl)
  | evtManualLock sequence rest => exact .inl (exists_does_of_unanswered rfl (exec_evtManualLock sequence rest) rfl rfl)
  | evtModuleLock sequence rest => exact .inl (exists_does_of_unanswered rfl (exec_evtModuleLock sequence rest) rfl rfl)
  | evtModuleUnlock sequence rest =>
    exact .inl (exists_does_of_unanswered rfl (exec_evtModuleUnlock sequence rest) rfl rfl)
  | evtTimeoutRelock sequence rest =>
    exact .inl (exists_does_of_unanswered rfl (exec_evtTimeoutRelock sequence rest) rfl rfl)
  | evtNfcUnlock sequence rest => exact .inl (exists_does_of_unanswered rfl (exec_evtNfcUnlock sequence rest) rfl rfl)
  | evtLowBattery sequence rest => exact .inl (exists_does_of_unanswered rfl (exec_evtLowBattery sequence rest) rfl rfl)
  | evtUnknown sequence payload => exact .inl (exists_does_of_unanswered rfl (exec_evtUnknown sequence payload) rfl rfl)
  | settingChg sequence payload =>
    exact .inl ⟨_, .received rfl (exec_settingChg sequence payload) nofun fun _ => rfl⟩
  | configEnter sequence payload =>
    exact .inl (exists_does_of_unanswered rfl (exec_configEnter sequence payload) rfl rfl)
  | discoveryReq sequence payload => exact .inl ⟨_, .received rfl (exec_discoveryReq sequence payload) nofun nofun⟩
  | cmdUnknown command sequence payload =>
    exact .inl (exists_does_of_unanswered rfl (exec_cmdUnknown command sequence payload) rfl rfl)
  | lockCmdLock => exact .inl ⟨_, .sent rfl rfl exec_lockCmdLock (sendable_lockCommand .lock)⟩
  | lockCmdUnlock => exact .inl ⟨_, .sent rfl rfl exec_lockCmdUnlock (sendable_lockCommand .unlock)⟩
  | statusReq => exact .inl ⟨_, .sent rfl rfl exec_statusReq sendable_statusRequest⟩
  | settingAck sequence => exact .inl ⟨_, .sent rfl rfl (exec_settingAck sequence) (sendable_settingAck sequence)⟩
  | discoveryRpl sequence =>
    exact .inl ⟨_, .sent rfl rfl (exec_discoveryRpl sequence) (sendable_discoveryReply sequence)⟩
  | lockReq target => exact .inl ⟨_, .sent rfl rfl (exec_lockReq target) (sendable_lockCommand target)⟩
  | xsumCompute bytes => exact .inl ⟨_, .valued rfl rfl (exec_xsumCompute bytes)⟩
  | xsumVerify frame => exact .inl ⟨_, .valued rfl rfl (exec_xsumVerify frame)⟩
  | validate f => exact .inl ⟨_, .valued rfl rfl (exec_validate f)⟩
  | decode f => exact .inl ⟨_, .valued rfl rfl (exec_decode f)⟩
  | reset => exact .inl ⟨_, .reset⟩
  | tick now bytes => exact .inl ⟨_, .tick now bytes⟩
  | feed b now => exact .inl ⟨_, .feed b now⟩
  | poll now => exact .inl ⟨_, .poll now⟩
  | dispatch f => exact .inl ⟨_, .dispatch f⟩
  | transmit => exact .inl ⟨_, .transmit⟩
  | schedPoll now => exact .inl ⟨_, .schedPoll now⟩
  | build command source sequence payload =>
    by_cases fits : payload.length ≤ 35
    · exact .inl ⟨_, .build ⟨command, source, sequence, payload, fits⟩⟩
    · exact .inr ⟨command, source, sequence, payload, rfl, Nat.not_le.1 fits⟩

/-- An instruction that answers a next state does one of the things listed. -/
theorem exists_does_of_next {i : Instr} {s t : State} (h : exec i s = .next t) : ∃ g, Does i g ∧ t = g s := by
  rcases does_or_overlong i with ⟨g, does⟩ | ⟨command, source, sequence, payload, rfl, overlong⟩
  · rw [does.exec_eq] at h
    cases h
    exact ⟨g, does, rfl⟩
  · rw [buildRefusesOverlongPayload command source sequence payload s overlong] at h
    cases h

/-- A step that answers a next state waits, or does what the oldest line's instruction does. -/
theorem step_next_cases {s t : State} (h : step s = .next t) :
    (s.pending = [] ∧ t = s) ∨
      ∃ (line : Line) (rest : List Line) (g : State → State),
        s.pending = line :: rest ∧ Does line.instr g ∧ t = g (takeLine rest s) := by
  cases pending : s.pending with
  | nil =>
    rw [step_of_idle pending] at h
    cases h
    exact .inl ⟨rfl, rfl⟩
  | cons line rest =>
    rw [step_of_pending pending] at h
    obtain ⟨g, does, rfl⟩ := exists_does_of_next h
    exact .inr ⟨line, rest, g, rfl, does, rfl⟩

/-- Bytes never stand for a BUILD, which has no encoding (R71). -/
theorem literal_instr_ne_build (raw : List Byte) (command source sequence : Byte) (payload : List Byte) :
    (Line.literal raw).instr ≠ .build command source sequence payload := by
  intro h
  cases decodes : decodeFrame raw with
  | ok i =>
    rw [instr_of_decodes decodes] at h
    subst h
    obtain ⟨fr, -, -, ⟨accepted, -, row⟩ | ⟨-, row⟩⟩ := decodeFrame_eq_ok decodes
    · have frame := frame?_selectRx accepted
      rw [← row] at frame
      cases frame
    · cases (frame?_of_selectTx row).2
  | error reject =>
    rw [instr_of_rejected decodes] at h
    cases h

/-- Settles O7: the oldest line's instruction does something, or it is a BUILD of too many bytes. -/
theorem everyStepButOverlongBuildAnswersNext : Obligations.EveryStepButOverlongBuildAnswersNext := by
  intro s
  cases pending : s.pending with
  | nil => exact .inl ⟨s, step_of_idle pending⟩
  | cons line rest =>
    rw [step_of_pending pending]
    rcases does_or_overlong line.instr with ⟨g, does⟩ | ⟨command, source, sequence, payload, build, overlong⟩
    · exact .inl ⟨_, does.exec_eq _⟩
    · cases line with
      | named i =>
        obtain rfl : i = .build command source sequence payload := build
        exact .inr ⟨command, source, sequence, payload, rest, rfl, overlong,
          buildRefusesOverlongPayload command source sequence payload _ overlong⟩
      | literal raw => exact absurd build (literal_instr_ne_build raw command source sequence payload)

/-! ### Runs of TICKs -/

theorem run_succ {s t : State} (h : step s = .next t) (k : Nat) :
    Host.Core.run Sys2Proof.core (k + 1) s = Host.Core.run Sys2Proof.core k t := by
  have coreStep : Sys2Proof.core.step s = .next t := h
  simp only [Host.Core.run, coreStep]

/-- The TICK of each pair of a time and bytes. -/
def tickLines (chunks : List (Time × List Byte)) : List Line := chunks.map fun c => .named (.tick c.1 c.2)

theorem step_tick {s : State} {now : Time} {bytes : List Byte} {rest : List Line}
    (pending : s.pending = .named (.tick now bytes) :: rest) :
    step s = .next (tick now bytes (takeLine rest s)) := step_of_pending pending

/-- TICKs that all bring bytes, fewer than fill the buffer, leave all of them held (R100, R103). -/
theorem run_ticks (chunks : List (Time × List Byte)) (after : List Line) (s : State)
    (some : ∀ c ∈ chunks, c.2 ≠ []) (room : s.rxLen.val + ((chunks.map Prod.snd).flatten).length ≤ 39)
    (pending : s.pending = tickLines chunks ++ after) :
    ∃ u : State, Host.Core.run Sys2Proof.core chunks.length s = .next u ∧ u.pending = after ∧
      heldBytes u = heldBytes s ++ (chunks.map Prod.snd).flatten ∧
      u.lastByteTime = (chunks.getLast?.elim s.lastByteTime Prod.fst) := by
  induction chunks generalizing s with
  | nil => exact ⟨s, rfl, pending, (List.append_nil _).symm, rfl⟩
  | cons c chunks ih =>
    have brings : c.2 ≠ [] := some c (by simp)
    rw [List.map_cons, List.flatten_cons, List.length_append] at room
    have ticked := step_tick (show s.pending = .named (.tick c.1 c.2) :: (tickLines chunks ++ after) from pending)
    have length := tick_of_bytes_rxLen (now := c.1) brings (takeLine (tickLines chunks ++ after) s)
    have held := heldBytes_tick_of_bytes (now := c.1) brings (takeLine (tickLines chunks ++ after) s)
    rw [takeLine_rxLen] at length held
    rw [Nat.mod_eq_of_lt (by omega)] at length
    rw [Nat.div_eq_of_lt (by omega)] at held
    obtain ⟨u, run, later, heldAll, time⟩ := ih (tick c.1 c.2 (takeLine (tickLines chunks ++ after) s))
      (fun d h => some d (by simp [h])) (by rw [length]; omega)
      (by rw [tick_of_bytes brings, schedPoll_pending, feedAll_pending, takeLine_pending])
    refine ⟨u, (run_succ ticked chunks.length).trans run, later, ?_, ?_⟩
    · rw [heldAll, held, List.map_cons, List.flatten_cons, ← List.append_assoc]
      rfl
    · rw [time, tick_of_bytes_lastByteTime brings, List.getLast?_cons]
      cases chunks.getLast? <;> rfl

/-- Settles O43: the bytes of the TICKs are held together, and the silence after the last delivers them. -/
theorem silenceDeliversExactlyTheBytesFed : Obligations.SilenceDeliversExactlyTheBytesFed := by
  intro chunks last now rest s empty some room silent pending
  obtain ⟨u, run, later, held, time⟩ :=
    run_ticks (chunks ++ [last]) (.named (.tick now []) :: rest) s some (by omega) pending
  have nothing : heldBytes s = [] := by
    rw [← List.length_eq_zero_iff, length_heldBytes, empty]
  rw [nothing, List.nil_append] at held
  rw [List.length_append] at run
  rw [List.getLast?_concat] at time
  have brought : ((chunks ++ [last]).map Prod.snd).flatten ≠ [] := by
    simp [some last (by simp)]
  have due : frameDue now (takeLine rest u) = true := by
    rw [frameDue_iff]
    refine ⟨?_, by rw [takeLine_lastByteTime, time]; exact silent⟩
    rw [takeLine_rxLen, ← length_heldBytes, held]
    exact List.length_pos_of_ne_nil brought
  refine ⟨u, dispatch ((chunks ++ [last]).map Prod.snd).flatten { u with rxLen := 0, pending := rest }, run,
    exec_dispatch _ _, ?_⟩
  have heldTaken : heldBytes (takeLine rest u) = ((chunks ++ [last]).map Prod.snd).flatten := held
  rw [step_tick later, tick_nil, pollAndDispatch_of_due due, heldTaken]
  rfl

end Sys2Proof.Proofs
end

section
/-! Rules of the whole machine: who writes what, and that outputs are never read (spec/10_state.md R13, R16, R26,
spec/70_reset_and_hazards.md R240). -/

namespace Sys2Proof.Proofs

open Sys2Proof Sys2Proof.Machine Sys2Proof.Laws Sys2Proof.Safety

/-! ### RESET -/

theorem exec_reset (s : State) : exec .reset s = .next (resetBlock s) := rfl

/-- Settles O49: every field is that of the reset state, and a second RESET writes the same. -/
theorem resetGivesTheResetValues : Obligations.ResetGivesTheResetValues := fun s =>
  ⟨resetBlock s, exec_reset s, rfl, rfl, rfl, rfl, rfl, rfl, rfl, rfl, rfl, rfl⟩

/-! ### The fields that each kind of instruction leaves alone -/

/-- POLL's effect on the block is to empty the assembler at most. -/
theorem poll_frame (now : Time) (s : State) : { (poll now s).2 with rxLen := s.rxLen } = s := by
  rcases poll_cases now s with ⟨-, h⟩ | ⟨-, h⟩ <;> rw [h]

theorem pollAndDispatch_keeps (now : Time) (s : State) :
    (pollAndDispatch now s).pending = s.pending ∧ (pollAndDispatch now s).returned = s.returned := by
  rcases pollAndDispatch_cases now s with ⟨-, h⟩ | ⟨-, h⟩ <;> rw [h]
  · obtain ⟨-, -, -, -, pending, returned⟩ := dispatch_keeps (heldBytes s) { s with rxLen := 0 }
    exact ⟨pending, returned⟩
  · exact ⟨rfl, rfl⟩

theorem tick_pending (now : Time) (bytes : List Byte) (s : State) : (tick now bytes s).pending = s.pending := by
  rw [tick, schedPoll_pending, (pollAndDispatch_keeps now _).1, feedAll_pending]

theorem tick_returned (now : Time) (bytes : List Byte) (s : State) : (tick now bytes s).returned = s.returned := by
  rw [tick, schedPoll_returned, (pollAndDispatch_keeps now _).2, feedAll_returned]

theorem perform_outgoing_of_no_reply {r : Result} (noReply : r.reply = none) (s : State) :
    (perform r s).txBuf = s.txBuf ∧ (perform r s).txLen = s.txLen := by
  rw [perform, noReply]
  exact ⟨forcePoll_txBuf _ _, forcePoll_txLen _ _⟩

section
variable {i : Instr} {g : State → State}

theorem Does.pending_eq (does : Does i g) (s : State) : (g s).pending = s.pending := by
  cases does with
  | received => exact perform_pending _ s
  | sent | valued | reset | build | transmit => rfl
  | tick now bytes => exact tick_pending now bytes s
  | feed b now => exact feedAll_pending now [b] s
  | poll now => exact (congrArg State.pending (poll_frame now s) :)
  | dispatch f =>
    obtain ⟨-, -, -, -, pending, -⟩ := dispatch_keeps f s
    exact pending
  | schedPoll now => exact schedPoll_pending now s

theorem Does.buffer_eq (does : Does i g) (h : writesBuffer i = false) (s : State) :
    (g s).rxBuf = s.rxBuf ∧ (g s).lastByteTime = s.lastByteTime := by
  cases does with
  | received => exact ⟨perform_rxBuf _ s, perform_lastByteTime _ s⟩
  | sent | valued | build | transmit => exact ⟨rfl, rfl⟩
  | poll now =>
    exact ⟨(congrArg State.rxBuf (poll_frame now s) :), (congrArg State.lastByteTime (poll_frame now s) :)⟩
  | dispatch f =>
    obtain ⟨rxBuf, -, lastByteTime, -⟩ := dispatch_keeps f s
    exact ⟨rxBuf, lastByteTime⟩
  | schedPoll now => exact ⟨schedPoll_rxBuf now s, schedPoll_lastByteTime now s⟩
  | reset | tick | feed => cases h

theorem Does.rxLen_eq (does : Does i g) (h : writesLength i = false) (s : State) : (g s).rxLen = s.rxLen := by
  cases does with
  | received => exact perform_rxLen _ s
  | sent | valued | build | transmit => rfl
  | dispatch f =>
    obtain ⟨-, rxLen, -⟩ := dispatch_keeps f s
    exact rxLen
  | schedPoll now => exact schedPoll_rxLen now s
  | reset | tick | feed | poll => cases h

theorem Does.lastPoll_eq (does : Does i g) (h : writesLastPoll i = false) (s : State) :
    (g s).lastPoll = s.lastPoll := by
  cases does with
  | received => exact perform_lastPoll _ s
  | sent | valued | build | transmit => rfl
  | feed b now => exact feedAll_lastPoll now [b] s
  | poll now => exact (congrArg State.lastPoll (poll_frame now s) :)
  | dispatch f =>
    obtain ⟨-, -, -, lastPoll, -⟩ := dispatch_keeps f s
    exact lastPoll
  | reset | tick | schedPoll => cases h

theorem Does.pollForce_eq (does : Does i g) (h : writesPollForce i = false) (s : State) :
    (g s).pollForce = s.pollForce := by
  cases does with
  | received _ _ _ unforced => rw [perform_pollForce, unforced h, Bool.false_or]
  | sent | valued | build | transmit => rfl
  | feed b now => exact feedAll_pollForce now [b] s
  | poll now => exact (congrArg State.pollForce (poll_frame now s) :)
  | reset | tick | schedPoll | dispatch => cases h

theorem Does.outgoing_eq (does : Does i g) (h : writesOutgoing i = false) (s : State) :
    (g s).txBuf = s.txBuf ∧ (g s).txLen = s.txLen := by
  cases does with
  | received _ _ unanswered => exact perform_outgoing_of_no_reply (unanswered h) s
  | valued | transmit => exact ⟨rfl, rfl⟩
  | feed b now => exact ⟨feedAll_txBuf now [b] s, feedAll_txLen now [b] s⟩
  | poll now => exact ⟨(congrArg State.txBuf (poll_frame now s) :), (congrArg State.txLen (poll_frame now s) :)⟩
  | sent _ owns => rw [h] at owns; cases owns
  | reset | tick | schedPoll | dispatch | build => cases h

theorem Does.returned_eq (does : Does i g) (h : returnsValue i = false) (s : State) :
    (g s).returned = s.returned := by
  cases does with
  | received => exact perform_returned _ s
  | sent | reset | transmit => rfl
  | tick now bytes => exact tick_returned now bytes s
  | feed b now => exact feedAll_returned now [b] s
  | dispatch f =>
    obtain ⟨-, -, -, -, -, returned⟩ := dispatch_keeps f s
    exact returned
  | schedPoll now => exact schedPoll_returned now s
  | valued _ owns => rw [h] at owns; cases owns
  | poll | build => cases h

end

/-- Settles O51: column by column, for each kind of instruction. -/
theorem onlyTheOwnersWriteState : Obligations.OnlyTheOwnersWriteState := by
  intro i s t h
  obtain ⟨g, does, rfl⟩ := exists_does_of_next h
  exact ⟨fun h => does.buffer_eq h s, fun h => does.rxLen_eq h s, fun h => does.lastPoll_eq h s,
    fun h => does.pollForce_eq h s, fun h => does.outgoing_eq h s, fun h => does.returned_eq h s, does.pending_eq s⟩

/-! ### The flag `discovered` -/

theorem frameDue_eq (now : Time) (s : State) :
    frameDue now s = (decide (0 < s.rxLen.val) && decide (10 < (now - s.lastByteTime).toNat)) := rfl

/-- A TICK with bytes delivers nothing; one without delivers the bytes held once the silence is long enough. -/
theorem tick_discovered_eq (now : Time) (bytes : List Byte) (s : State) :
    (tick now bytes s).discovered = (s.discovered || (bytes.isEmpty && decide (0 < s.rxLen.val) &&
      decide (10 < (now - s.lastByteTime).toNat) &&
      decide (validateFrame ((List.range s.rxLen.val).map s.rxBuf.read) = .ok))) := by
  rw [tick_discovered]
  cases bytes with
  | nil =>
    rw [← heldBytes_eq_map_read, List.isEmpty_nil, Bool.true_and, ← frameDue_eq]
    rfl
  | cons b rest =>
    rw [frameDue_of_lastByteTime (feedAll_lastByteTime now s (List.cons_ne_nil b rest))]
    rfl

/-- The instructions other than RESET, DISPATCH and TICK, of each of which R16 says something of its own. -/
def leavesDiscovered : Instr → Bool
  | .reset => false
  | .dispatch _ => false
  | .tick _ _ => false
  | _ => true

/-- Of these only a received row, run alone, sets the flag (entry 28). -/
theorem Does.discovered_eq {i : Instr} {g : State → State} (does : Does i g) (h : leavesDiscovered i = true)
    (s : State) : (g s).discovered = (s.discovered || i.isRx) := by
  cases does with
  | received isRow => rw [perform_discovered, isRow, Bool.or_true]
  | sent notRow => rw [send_discovered, notRow, Bool.or_false]
  | valued notRow => rw [giveBack_discovered, notRow, Bool.or_false]
  | feed b now => exact (feedAll_discovered now [b] s).trans (Bool.or_false _).symm
  | poll now => exact (congrArg State.discovered (poll_frame now s) :).trans (Bool.or_false _).symm
  | build o | transmit => exact (Bool.or_false _).symm
  | schedPoll now => exact (schedPoll_discovered now s).trans (Bool.or_false _).symm
  | reset | tick | dispatch => cases h

/-- Settles O50: RESET, DISPATCH and TICK each for itself, all others by their kind. -/
theorem onlyValidatedFramesSetDiscovered : Obligations.OnlyValidatedFramesSetDiscovered := by
  refine ⟨fun i s t h => ?_, fun now s undiscovered => ?_⟩
  · cases i
    case reset => cases h; rfl
    case dispatch f => cases h; exact dispatch_discovered f s
    case tick now bytes => cases h; exact tick_discovered_eq now bytes s
    all_goals
      obtain ⟨g, does, rfl⟩ := exists_does_of_next h
      exact does.discovered_eq rfl s
  · rw [exec_schedPoll, schedPoll_of_not_due (pollDue_of_undiscovered undiscovered)]

/-! ### The trace -/

/-- From this state the operation adds outputs that do not depend on the trace, and neither does the rest of what it
does. -/
def TraceBlindAt (g : State → State) (s : State) : Prop :=
  ∃ outs, ∀ before : List Output, g { s with trace := before } = { g s with trace := before ++ outs }

theorem TraceBlindAt.comp {f g : State → State} {s : State} (hf : TraceBlindAt f s) (hg : TraceBlindAt g (f s)) :
    TraceBlindAt (fun s => g (f s)) s := by
  obtain ⟨first, hf⟩ := hf
  obtain ⟨second, hg⟩ := hg
  refine ⟨first ++ second, fun before => ?_⟩
  show g (f { s with trace := before }) = _
  rw [hf before, hg, List.append_assoc]

/-- On the branch that a state takes whatever its trace, the operation may be replaced by the branch. -/
theorem TraceBlindAt.of_branch {f g : State → State} {s : State} (hf : TraceBlindAt f s)
    (branch : ∀ before : List Output, g { s with trace := before } = f { s with trace := before }) :
    TraceBlindAt g s := by
  obtain ⟨outs, hf⟩ := hf
  have same : g s = f s := branch s.trace
  exact ⟨outs, fun before => by rw [branch, hf, same]⟩

/-- An operation that neither reads nor writes the trace. -/
theorem TraceBlindAt.of_silent {g : State → State} {s : State}
    (silent : ∀ before : List Output, g { s with trace := before } = { g s with trace := before }) :
    TraceBlindAt g s :=
  ⟨[], fun before => by rw [silent, List.append_nil]⟩

section
variable (s : State)

theorem traceBlindAt_emit (os : List Output) : TraceBlindAt (emit os) s := ⟨os, fun _ => rfl⟩

theorem traceBlindAt_send (o : OutFrame) : TraceBlindAt (send o) s :=
  ⟨sendOutputs ((build o s).txBuf.readBytes 0 (build o s).txLen), fun _ => rfl⟩

theorem traceBlindAt_perform (r : Result) : TraceBlindAt (perform r) s := by
  have noticed : TraceBlindAt (fun s => forcePoll r.force (emit r.notices (markDiscovered s))) s :=
    ⟨r.notices, fun before => by cases r.force <;> rfl⟩
  cases reply : r.reply with
  | none => exact noticed.of_branch fun before => by rw [perform, reply]; rfl
  | some o => exact (noticed.comp (traceBlindAt_send _ o)).of_branch fun before => by rw [perform, reply]; rfl

theorem traceBlindAt_feed (b : Byte) (now : Time) : TraceBlindAt (feed b now) s := by
  by_cases full : s.rxLen.val + 1 = Config.rxCap
  · exact ⟨[.diag (.frameOverflow Config.rxCap)], fun before => by
      have full' : ({ s with trace := before } : State).rxLen.val + 1 = Config.rxCap := full
      rw [feed, dif_pos full', feed, dif_pos full]
      rfl⟩
  · exact .of_silent fun before => by
      have notFull' : ¬ ({ s with trace := before } : State).rxLen.val + 1 = Config.rxCap := full
      rw [feed, dif_neg notFull', feed, dif_neg full]
      rfl

theorem traceBlindAt_feedAll (now : Time) (bytes : List Byte) : TraceBlindAt (feedAll now bytes) s := by
  induction bytes generalizing s with
  | nil => exact .of_silent fun _ => rfl
  | cons b rest ih => exact (traceBlindAt_feed s b now).comp (ih (feed b now s))

theorem traceBlindAt_dispatch (f : List Byte) : TraceBlindAt (dispatch f) s := by
  cases verdict : validateFrame f with
  | ok => exact (traceBlindAt_perform s _).of_branch fun before => dispatch_of_ok verdict _
  | error code => exact (traceBlindAt_emit s _).of_branch fun before => dispatch_of_error verdict _

theorem traceBlindAt_poll (now : Time) :
    TraceBlindAt (fun s => giveBack (.polled (poll now s).1) (poll now s).2) s := by
  refine .of_silent fun before => ?_
  have sameDue : frameDue now { s with trace := before } = frameDue now s := rfl
  rw [poll, poll, sameDue]
  cases frameDue now s <;> rfl

theorem traceBlindAt_pollAndDispatch (now : Time) : TraceBlindAt (pollAndDispatch now) s := by
  cases due : frameDue now s with
  | true =>
    have emptied : TraceBlindAt (fun s => { s with rxLen := 0 }) s := .of_silent fun _ => rfl
    exact (emptied.comp (traceBlindAt_dispatch _ (heldBytes s))).of_branch fun before => pollAndDispatch_of_due due
  | false =>
    have idle : TraceBlindAt id s := .of_silent fun _ => rfl
    exact idle.of_branch fun before => pollAndDispatch_of_not_due due

theorem traceBlindAt_schedPoll (now : Time) : TraceBlindAt (schedPoll now) s := by
  cases due : pollDue now s with
  | true =>
    have restarted : TraceBlindAt (fun s => { s with lastPoll := now, pollForce := false }) s :=
      .of_silent fun _ => rfl
    exact (restarted.comp (traceBlindAt_send _ statusRequestFrame)).of_branch fun before => schedPoll_of_due due
  | false =>
    have idle : TraceBlindAt id s := .of_silent fun _ => rfl
    exact idle.of_branch fun before => schedPoll_of_not_due due

theorem traceBlindAt_tick (now : Time) (bytes : List Byte) : TraceBlindAt (tick now bytes) s :=
  ((traceBlindAt_feedAll s now bytes).comp (traceBlindAt_pollAndDispatch _ now)).comp (traceBlindAt_schedPoll _ now)

end

theorem Does.traceBlindAt {i : Instr} {g : State → State} (does : Does i g) (s : State) : TraceBlindAt g s := by
  cases does with
  | received => exact traceBlindAt_perform s _
  | sent => exact traceBlindAt_send s _
  | valued | reset | build => exact .of_silent fun _ => rfl
  | tick now bytes => exact traceBlindAt_tick s now bytes
  | feed b now => exact traceBlindAt_feed s b now
  | poll now => exact traceBlindAt_poll s now
  | dispatch f => exact traceBlindAt_dispatch s f
  | transmit => exact ⟨sendOutputs (s.txBuf.readBytes 0 s.txLen), fun _ => rfl⟩
  | schedPoll now => exact traceBlindAt_schedPoll s now

/-- Settles O52: the added outputs are the same whatever stood in the trace before. -/
theorem outputsAreNeverReadBack : Obligations.OutputsAreNeverReadBack := by
  intro i s t other h
  obtain ⟨g, does, rfl⟩ := exists_does_of_next h
  obtain ⟨outs, blind⟩ := does.traceBlindAt s
  have added : (g s).trace = s.trace ++ outs := congrArg State.trace (blind s.trace)
  exact ⟨outs, added, by rw [does.exec_eq, blind]⟩

end Sys2Proof.Proofs
end

section
/-! The invariants: the buffers stay canonical, the outgoing frame right and the poll unforced between steps
(spec/10_state.md R21, R28, R44), and only listed frames reach the link (spec/44_encode_transmit.md R178). -/

namespace Sys2Proof.Proofs

open Sys2Proof Sys2Proof.Machine Sys2Proof.Laws Sys2Proof.Safety

/-! ### The buffers -/

/-- Both buffers are canonical and inside their spaces, and the outgoing frame, if there is one, is right. -/
def BuffersRight (s : State) : Prop := buffersOk s = true ∧ txFrameOk s = true

/-- Nothing but the buffers and `tx_len` matters. -/
theorem BuffersRight.congr {s t : State} (h : BuffersRight s) (rxBuf : t.rxBuf = s.rxBuf)
    (txBuf : t.txBuf = s.txBuf) (txLen : t.txLen = s.txLen) : BuffersRight t := by
  rw [BuffersRight, buffersOk_iff, txFrameOk_iff] at h ⊢
  rwa [rxBuf, txBuf, txLen]

/-- Reading back the first of the bytes that a run of writes stored. -/
theorem readBytes_writeBytes_append (m : Memory) (a : Nat) (front back : List Byte) :
    (m.writeBytes a (front ++ back)).readBytes a front.length = front := by
  refine List.ext_getElem (length_readBytes _ _ _) fun k _ inside => ?_
  simp [Memory.readBytes, read_writeBytes, List.getElem?_append_left inside, inside]

theorem length_frameBody (fr : Frame) : (frameBody fr).length = 4 + fr.payload.length := by
  rw [frameBody, List.length_append]
  rfl

/-- What BUILD leaves in the outgoing register is a right frame. -/
theorem txFrameOk_build (o : OutFrame) (s : State) : txFrameOk (build o s) = true := by
  rw [txFrameOk_iff, build_txLen]
  have lastIndex : Config.overhead + o.payload.length - 1 = (frameBody o.frame).length := by
    rw [length_frameBody]
    show 5 + o.payload.length - 1 = 4 + o.payload.length
    omega
  refine .inr ⟨Nat.le_add_right _ _, ?length, ?checksum⟩
  case length =>
    rw [read_build_txBuf, Nat.add_sub_cancel_left]
    exact (Countable.of_fits (fr := o.frame) o.fits).toNat_length
  case checksum =>
    rw [lastIndex, read_build_txBuf, build_txBuf, frameBytes_eq_body, readBytes_writeBytes_append]
    simp

theorem BuffersRight.build {s : State} (h : BuffersRight s) (o : OutFrame) : BuffersRight (build o s) := by
  obtain ⟨buffers, -⟩ := h
  obtain ⟨rxWf, rxWithin, txWf, txWithin⟩ := (buffersOk_iff s).1 buffers
  have room : 0 + (frameBytes o.frame).length ≤ Config.txCap := by
    have fits : o.payload.length ≤ 35 := o.fits
    rw [length_frameBytes]
    show 0 + (5 + o.payload.length) ≤ 40
    omega
  exact ⟨(buffersOk_iff _).2 ⟨rxWf, rxWithin, writeBytes_wf txWf 0 _, writeBytes_within txWithin room⟩,
    txFrameOk_build o s⟩

theorem BuffersRight.send {s : State} (h : BuffersRight s) (o : OutFrame) : BuffersRight (send o s) :=
  (h.build o).congr rfl rfl rfl

theorem BuffersRight.perform {s : State} (h : BuffersRight s) (r : Result) : BuffersRight (perform r s) := by
  have noticed : BuffersRight (forcePoll r.force (emit r.notices (markDiscovered s))) :=
    h.congr (forcePoll_rxBuf _ _) (forcePoll_txBuf _ _) (forcePoll_txLen _ _)
  rw [Machine.perform]
  cases r.reply with
  | none => exact noticed
  | some o => exact noticed.send o

theorem BuffersRight.dispatch {s : State} (h : BuffersRight s) (f : List Byte) : BuffersRight (dispatch f s) := by
  rcases dispatch_cases f s with ⟨code, -, dropped⟩ | ⟨-, performed⟩
  · rw [dropped]
    exact h.congr rfl rfl rfl
  · rw [performed]
    exact h.perform _

theorem BuffersRight.feed {s : State} (h : BuffersRight s) (b : Byte) (now : Time) : BuffersRight (feed b now s) := by
  obtain ⟨buffers, frame⟩ := h
  obtain ⟨rxWf, rxWithin, txWf, txWithin⟩ := (buffersOk_iff s).1 buffers
  have stored : BuffersRight (storeByte b now s) :=
    ⟨(buffersOk_iff _).2 ⟨write_wf rxWf _ b, write_within rxWithin s.rxLen.isLt b, txWf, txWithin⟩, frame⟩
  rcases feed_cases b now s with ⟨_, h⟩ | ⟨-, h⟩ <;> rw [h] <;> exact stored.congr rfl rfl rfl

theorem BuffersRight.feedAll {s : State} (h : BuffersRight s) (now : Time) (bytes : List Byte) :
    BuffersRight (feedAll now bytes s) := by
  induction bytes generalizing s with
  | nil => exact h
  | cons b rest ih => exact ih (h.feed b now)

theorem BuffersRight.pollAndDispatch {s : State} (h : BuffersRight s) (now : Time) :
    BuffersRight (pollAndDispatch now s) := by
  rcases pollAndDispatch_cases now s with ⟨-, delivered⟩ | ⟨-, idle⟩
  · rw [delivered]
    exact BuffersRight.dispatch (s := { s with rxLen := 0 }) (h.congr rfl rfl rfl) _
  · rwa [idle]

theorem BuffersRight.schedPoll {s : State} (h : BuffersRight s) (now : Time) : BuffersRight (schedPoll now s) := by
  rcases schedPoll_cases now s with ⟨-, requested⟩ | ⟨-, idle⟩
  · rw [requested]
    exact (h.send statusRequestFrame).congr rfl rfl rfl
  · rwa [idle]

theorem Does.buffersRight {i : Instr} {g : State → State} (does : Does i g) {s : State} (h : BuffersRight s) :
    BuffersRight (g s) := by
  cases does with
  | received => exact h.perform _
  | sent => exact h.send _
  | valued | transmit => exact h.congr rfl rfl rfl
  | reset => exact BuffersRight.congr (s := State.reset) ⟨by decide, by decide⟩ rfl rfl rfl
  | tick now bytes => exact ((h.feedAll now bytes).pollAndDispatch now).schedPoll now
  | feed b now => exact h.feed b now
  | poll now =>
    exact h.congr (congrArg State.rxBuf (poll_frame now s) :) (congrArg State.txBuf (poll_frame now s) :)
      (congrArg State.txLen (poll_frame now s) :)
  | dispatch f => exact h.dispatch f
  | build o => exact (h.build o).congr rfl rfl rfl
  | schedPoll now => exact h.schedPoll now

/-- Settles O53: whatever the oldest line's instruction does keeps the buffers right. -/
theorem everyStepKeepsTheBuffers : Obligations.EveryStepKeepsTheBuffers := by
  intro s t buffers frame h
  have right : BuffersRight s := ⟨buffers, frame⟩
  rcases step_next_cases h with ⟨-, rfl⟩ | ⟨line, rest, g, -, does, rfl⟩
  · exact right
  · exact does.buffersRight (s := takeLine rest s) (right.congr rfl rfl rfl)

/-! ### Step boundaries -/

/-- Settles O55: the reset state is one fixed state. -/
theorem resetMeetsTheBoundaryInvariant : Obligations.ResetMeetsTheBoundaryInvariant := by
  unfold Obligations.ResetMeetsTheBoundaryInvariant
  decide

theorem boundaryOk_iff (s : State) : boundaryOk s = true ↔ BuffersRight s ∧ s.pollForce = false := by
  simp only [boundaryOk, BuffersRight, Bool.and_eq_true, Bool.not_eq_true']

/-- The lines of the step alphabet (R24). -/
theorem isExternal_cases {line : Line} (h : isExternal line = true) :
    line = .named .reset ∨ (∃ now bytes, line = .named (.tick now bytes)) ∨
      ∃ target, line = .named (.lockReq target) := by
  cases line with
  | literal raw => cases h
  | named i =>
    cases i
    case reset => exact .inl rfl
    case tick now bytes => exact .inr (.inl ⟨now, bytes, rfl⟩)
    case lockReq target => exact .inr (.inr ⟨target, rfl⟩)
    all_goals cases h

/-- A step of the step alphabet that answers a next state. -/
theorem external_step_cases {s t : State} (external : externalOnly s = true) (h : step s = .next t) :
    (s.pending = [] ∧ t = s) ∨
      ∃ (line : Line) (rest : List Line), s.pending = line :: rest ∧ rest.all isExternal = true ∧
        (t = resetBlock (takeLine rest s) ∨ (∃ now bytes, t = tick now bytes (takeLine rest s)) ∨
          ∃ target, t = send (lockCommandFrame target) (takeLine rest s)) := by
  cases pending : s.pending with
  | nil =>
    rw [step_of_idle pending] at h
    cases h
    exact .inl ⟨rfl, rfl⟩
  | cons line rest =>
    rw [externalOnly, pending, List.all_cons, Bool.and_eq_true] at external
    obtain ⟨first, others⟩ := external
    rw [step_of_pending pending] at h
    refine .inr ⟨line, rest, rfl, others, ?_⟩
    rcases isExternal_cases first with rfl | ⟨now, bytes, rfl⟩ | ⟨target, rfl⟩
    all_goals cases h
    · exact .inl rfl
    · exact .inr (.inl ⟨now, bytes, rfl⟩)
    · exact .inr (.inr ⟨target, rfl⟩)

/-- Only a discovery forces the poll, so phase 2 leaves a forced poll to a discovered block only. -/
theorem discovered_of_forced {now : Time} {s : State} (unforced : s.pollForce = false)
    (forced : (pollAndDispatch now s).pollForce = true) : (pollAndDispatch now s).discovered = true := by
  rcases pollAndDispatch_cases now s with ⟨-, h⟩ | ⟨-, h⟩
  · rcases dispatch_cases (heldBytes s) { s with rxLen := 0 } with ⟨code, -, h'⟩ | ⟨-, h'⟩
    · rw [h, h', raise_pollForce] at forced
      cases unforced.symm.trans forced
    · rw [h, h', perform_discovered]
  · rw [h] at forced
    cases unforced.symm.trans forced

/-- The poll timer clears the flag whenever the block is discovered (R192). -/
theorem schedPoll_pollForce {now : Time} {s : State} (h : s.pollForce = true → s.discovered = true) :
    (schedPoll now s).pollForce = false := by
  cases forced : s.pollForce with
  | true =>
    rw [schedPoll_of_due ((pollDue_iff now s).2 ⟨h forced, .inl forced⟩)]
    rfl
  | false => rcases schedPoll_cases now s with ⟨-, h⟩ | ⟨-, h⟩ <;> simp [h, forced]

theorem tick_pollForce {now : Time} {bytes : List Byte} {s : State} (unforced : s.pollForce = false) :
    (tick now bytes s).pollForce = false :=
  schedPoll_pollForce (discovered_of_forced ((feedAll_pollForce now bytes s).trans unforced))

/-- Settles O54: the buffers by O53, the flag by the TICK's last phase, the lines because they are only taken. -/
theorem boundaryInvariantIsKept : Obligations.BoundaryInvariantIsKept := by
  intro s t boundary external h
  obtain ⟨⟨buffers, frame⟩, unforced⟩ := (boundaryOk_iff s).1 boundary
  have right : BuffersRight t := everyStepKeepsTheBuffers s t buffers frame h
  rw [boundaryOk_iff]
  rcases external_step_cases external h with
    ⟨-, rfl⟩ | ⟨line, rest, -, others, rfl | ⟨now, bytes, rfl⟩ | ⟨target, rfl⟩⟩
  · exact ⟨⟨right, unforced⟩, external⟩
  · exact ⟨⟨right, rfl⟩, others⟩
  · refine ⟨⟨right, tick_pollForce unforced⟩, ?_⟩
    rw [externalOnly, tick_pending]
    exact others
  · exact ⟨⟨right, unforced⟩, others⟩

/-! ### What reaches the link -/

/-- The link outputs of some frames: each whole, behind its own wake pulse. -/
def linkOutputs (frames : List (List Byte)) : List Output :=
  (frames.map fun f => [.wake .asserted, .wake .deasserted] ++ f.map Output.txByte).flatten

/-- From the first state to the second, the outputs added to the link are at most `n` listed frames. -/
def AddsFrames (n : Nat) (s t : State) : Prop :=
  ∃ (frames : List (List Byte)) (outs : List Output), frames.length ≤ n ∧ (∀ f ∈ frames, Sendable f) ∧
    t.trace = s.trace ++ outs ∧ outs.filter onLink = linkOutputs frames

theorem AddsFrames.mono {m n : Nat} {s t : State} (h : AddsFrames m s t) (le : m ≤ n) : AddsFrames n s t := by
  obtain ⟨frames, outs, few, listed, added, link⟩ := h
  exact ⟨frames, outs, few.trans le, listed, added, link⟩

theorem AddsFrames.trans {m n : Nat} {s t u : State} (first : AddsFrames m s t) (second : AddsFrames n t u) :
    AddsFrames (m + n) s u := by
  obtain ⟨frames, outs, few, listed, added, link⟩ := first
  obtain ⟨frames', outs', few', listed', added', link'⟩ := second
  refine ⟨frames ++ frames', outs ++ outs', ?_, fun f h => ?_, ?_, ?_⟩
  · rw [List.length_append]
    exact Nat.add_le_add few few'
  · exact (List.mem_append.1 h).elim (listed f) (listed' f)
  · rw [added', added, List.append_assoc]
  · rw [List.filter_append, link, link', linkOutputs, linkOutputs, linkOutputs, List.map_append, List.flatten_append]

theorem addsFrames_of_silent {s t : State} {outs : List Output} (added : t.trace = s.trace ++ outs)
    (silent : ∀ o ∈ outs, onLink o = false) : AddsFrames 0 s t := by
  refine ⟨[], outs, Nat.le_refl 0, nofun, added, ?_⟩
  rw [List.filter_eq_nil_iff.2 fun o h => by simp [silent o h]]
  rfl

theorem addsFrames_of_trace_eq {s t : State} (same : t.trace = s.trace) : AddsFrames 0 s t :=
  addsFrames_of_silent (same.trans (List.append_nil _).symm) nofun

theorem addsFrames_of_sendOutputs {s t : State} {bytes : List Byte} (listed : Sendable bytes)
    (added : t.trace = s.trace ++ sendOutputs bytes) : AddsFrames 1 s t := by
  refine ⟨[bytes], sendOutputs bytes, Nat.le_refl 1, fun f h => ?_, added, ?_⟩
  · rwa [List.mem_singleton.1 h]
  · rw [List.filter_eq_self.2 fun o h => onLink_of_mem_sendOutputs h, linkOutputs, List.map_singleton,
      List.flatten_singleton]
    rfl

/-- Performing a rule adds its reply to the link, if that is listed. -/
theorem addsFrames_perform {r : Result} (listed : ∀ o, r.reply = some o → Sendable (frameBytes o.frame))
    (s : State) : AddsFrames 1 s (perform r s) := by
  have notices : AddsFrames 0 s (emit r.notices s) :=
    addsFrames_of_silent (emit_trace _ _) fun o h => onLink_of_mem_notices h
  have reply : AddsFrames 1 (emit r.notices s) (perform r s) := by
    cases answer : r.reply with
    | none => exact (addsFrames_of_trace_eq (by simp [resultOutputs, answer])).mono (Nat.zero_le 1)
    | some o => exact addsFrames_of_sendOutputs (listed o answer) (by simp [resultOutputs, answer])
  exact notices.trans reply

/-- Both replies are listed frames. -/
theorem sendable_commandRule_reply {fr : Frame} {o : OutFrame} (h : (commandRule fr).reply = some o) :
    Sendable (frameBytes o.frame) := by
  rw [commandRule_reply] at h
  split_ifs at h
  all_goals cases h
  · exact sendable_settingAck fr.sequence
  · exact sendable_discoveryReply fr.sequence

theorem addsFrames_dispatch (f : List Byte) (s : State) : AddsFrames 1 s (dispatch f s) := by
  rcases dispatch_cases f s with ⟨code, -, h⟩ | ⟨-, h⟩ <;> rw [h]
  · exact (addsFrames_of_silent (raise_trace _ s) (by simp [onLink])).mono (Nat.zero_le 1)
  · exact addsFrames_perform (fun _ reply => sendable_commandRule_reply reply) s

theorem addsFrames_tick (now : Time) (bytes : List Byte) (s : State) : AddsFrames 2 s (tick now bytes s) := by
  have fed : AddsFrames 0 s (feedAll now bytes s) :=
    addsFrames_of_silent (feedAll_trace now bytes s) fun o h => by rw [List.eq_of_mem_replicate h]; rfl
  have delivered : ∀ u, AddsFrames 1 u (pollAndDispatch now u) := fun u => by
    rcases pollAndDispatch_cases now u with ⟨-, h⟩ | ⟨-, h⟩ <;> rw [h]
    · exact addsFrames_dispatch (heldBytes u) { u with rxLen := 0 }
    · exact (addsFrames_of_trace_eq rfl).mono (Nat.zero_le 1)
  have polled : ∀ u, AddsFrames 1 u (schedPoll now u) := fun u => by
    rcases schedPoll_cases now u with ⟨-, h⟩ | ⟨-, h⟩ <;> rw [h]
    · exact addsFrames_of_sendOutputs sendable_statusRequest (send_trace _ u)
    · exact (addsFrames_of_trace_eq rfl).mono (Nat.zero_le 1)
  exact (fed.trans (delivered _)).trans (polled _)

/-- Settles O56: a reply and a status request at most, or the one lock command. -/
theorem onlyListedFramesReachTheLink : Obligations.OnlyListedFramesReachTheLink := by
  intro s t external h
  show AddsFrames 2 s t
  rcases external_step_cases external h with
    ⟨-, rfl⟩ | ⟨line, rest, -, -, rfl | ⟨now, bytes, rfl⟩ | ⟨target, rfl⟩⟩
  · exact (addsFrames_of_trace_eq rfl).mono (Nat.zero_le 2)
  · exact (addsFrames_of_trace_eq rfl).mono (Nat.zero_le 2)
  · exact addsFrames_tick now bytes (takeLine rest s)
  · exact (addsFrames_of_sendOutputs (sendable_lockCommand target) (send_trace _ (takeLine rest s))).mono
      (Nat.le_succ 1)

end Sys2Proof.Proofs
end
